-- ==== Sys2Proof/Word.lean ====
section
/-!
DEFINITION. The word types of the RC5 decoder (spec/00_scope.md R10, R11).
All values are unsigned and bit 0 is the least significant bit of every value (R11).
-/

namespace Sys2Proof

/-- The request word `req` of exactly 36 bits (30_encoding.md R60). -/
abbrev ReqWord := BitVec 36

/-- The response word `rsp` of 17 bits: `rsp[16]` is `some`, `rsp[15:0]` is `value` (R66). -/
abbrev RspWord := BitVec 17

/-- The elapsed-tick operand and the two window bounds, 32 bits (R10, `TICK_W`). -/
abbrev Ticks := BitVec 32

/-- The accumulator and the latch word, 14 bits each (R10, `ACC_W`, `WORD_W`). -/
abbrev FrameWord := BitVec 14

/-- The operand of the extraction helpers and the response value, doc00's `u16` (R65, R66). -/
abbrev HalfWord := BitVec 16

/-- The bit-position counter `CNT`, values 0 to 14 (R10, R22): the value 15, which the spec says is
never held, is excluded by the type (R72, 93_implementation_defined.md U3; log entry 4). -/
abbrev Count := Fin 15

end Sys2Proof
end

