-- ==== Sys2Proof/Syntax.lean ====
section
/-!
DEFINITION. The operations of spec/opcode_table.json (30_encoding.md R61), one constructor of Instr
per row, the four events (R69), and the lines of the trace notation (R75 to R77).
-/

namespace Sys2Proof

/-- The four events: the kind and length of the interval that the detected edge has just ended
(00_scope.md R14, 30_encoding.md R69). -/
inductive Event where
  /-- short-space -/
  | ss
  /-- short-pulse -/
  | sp
  /-- long-space -/
  | ls
  /-- long-pulse -/
  | lp
deriving DecidableEq, Repr

/-- One operation of the block, with its operands (R61 to R65). Bits a format ignores are no operand
(R67, R71; log entry 8). -/
inductive Instr where
  /-- `NOP` (R133) -/
  | nop
  /-- `EDGE level, ticks` (R80): the line level at edge detection, true for high, and the ticks since
  the previous edge -/
  | edge (level : Bool) (ticks : Ticks)
  /-- `EV.SS` (R118) -/
  | evSS
  /-- `EV.SP` (R119) -/
  | evSP
  /-- `EV.LS` (R120) -/
  | evLS
  /-- `EV.LP` (R121) -/
  | evLP
  /-- `ARM` (R130) -/
  | arm
  /-- `TAKE` (R131) -/
  | take
  /-- `XCMD w` (R141) -/
  | xcmd (w : HalfWord)
  /-- `XTOG w` (R142) -/
  | xtog (w : HalfWord)
  /-- `XADDR w` (R143) -/
  | xaddr (w : HalfWord)
deriving DecidableEq, Repr

/-- The name that opens a line of the trace notation (R75), and the pseudo-operation FRAME (R77). -/
inductive LineOp where
  | nop | edge | evSS | evSP | evLS | evLP | arm | take | xcmd | xtog | xaddr | frame
deriving DecidableEq, Repr

/-- One line of a program in the trace notation (R75): a name and its numbers, as written. -/
structure TraceLine where
  op : LineOp
  args : List Nat
deriving DecidableEq, Repr

/-- The event an EVENT operation carries (R64): EV.SS, EV.SP, EV.LS, EV.LP. -/
def Event.instr : Event → Instr
  | .ss => .evSS
  | .sp => .evSP
  | .ls => .evLS
  | .lp => .evLP

end Sys2Proof
end

