-- ==== Sys2Proof/WellFormed.lean ====
section
/-!
DEFINITION. Which written operations are legal. Every term of Instr is legal by its types (each operand
has exactly the width of its field, spec/30_encoding.md R62 to R65); what can be ill formed is a line of
the trace notation (R75, R77) whose numbers do not fit the fields, and a number too wide to be a
request word (R60).
-/

namespace Sys2Proof

/-- A number is a request word when it has at most 36 bits (R60: "exactly 36 bits"). -/
def isRequestWord (n : Nat) : Bool := n < 2 ^ 36

/-- A trace line is well formed when it has the operands of its operation and each fits its field:
`level` 1 bit and `ticks` 32 bits (R63), `w` 16 bits (R65), and for `FRAME w, first, h` a 14-bit `w`
with `w[13] = 1` (R77) whose ticks fit the operand (log entry 13). -/
def TraceLine.wellFormed (l : TraceLine) : Bool :=
  match l.op, l.args with
  | .nop, [] => true
  | .edge, [level, ticks] => level < 2 && ticks < 2 ^ 32
  | .evSS, [] => true
  | .evSP, [] => true
  | .evLS, [] => true
  | .evLP, [] => true
  | .arm, [] => true
  | .take, [] => true
  | .xcmd, [w] => w < 2 ^ 16
  | .xtog, [w] => w < 2 ^ 16
  | .xaddr, [w] => w < 2 ^ 16
  | .frame, [w, first, h] => w < 2 ^ 14 && w.testBit 13 && first < 2 ^ 32 && 2 * h < 2 ^ 32
  | _, _ => false

/-- The line of the trace notation that writes an operation (R75). -/
def Instr.line : Instr → TraceLine
  | .nop => ⟨.nop, []⟩
  | .edge level ticks => ⟨.edge, [level.toNat, ticks.toNat]⟩
  | .evSS => ⟨.evSS, []⟩
  | .evSP => ⟨.evSP, []⟩
  | .evLS => ⟨.evLS, []⟩
  | .evLP => ⟨.evLP, []⟩
  | .arm => ⟨.arm, []⟩
  | .take => ⟨.take, []⟩
  | .xcmd w => ⟨.xcmd, [w.toNat]⟩
  | .xtog w => ⟨.xtog, [w.toNat]⟩
  | .xaddr w => ⟨.xaddr, [w.toNat]⟩

/-- An operation is well formed when the line that writes it is. Every operation is (Laws). -/
def Instr.wellFormed (i : Instr) : Bool := i.line.wellFormed

end Sys2Proof
end

