-- ==== Sys2Proof/Decode.lean ====
section
/-!
DEFINITION. The request word (spec/30_encoding.md R60 to R71): its fields, the decoder, total on every
36-bit word since no operation code is illegal (R71), the decoder of a number, which rejects by name a
number that is no request word, and the encoder.
-/

namespace Sys2Proof

/-- Event code `ev = {long, pulse}` (R69): SS = 0, SP = 1, LS = 2, LP = 3. -/
def Event.code : Event → BitVec 2
  | .ss => 0#2
  | .sp => 1#2
  | .ls => 2#2
  | .lp => 3#2

/-- The event of a code (R69). -/
def Event.ofCode (c : BitVec 2) : Event :=
  if c = 0#2 then .ss else if c = 1#2 then .sp else if c = 2#2 then .ls else .lp

/-- `op = req[35:33]` (R60). -/
def opField (req : ReqWord) : BitVec 3 := req.extractLsb' 33 3

/-- Format G: `level = req[32]` (R63). -/
def levelField (req : ReqWord) : Bool := req.getLsbD 32

/-- Format G: `ticks = req[31:0]` (R63). -/
def ticksField (req : ReqWord) : Ticks := req.extractLsb' 0 32

/-- Format V: `ev = req[1:0]` (R64). -/
def evField (req : ReqWord) : BitVec 2 := req.extractLsb' 0 2

/-- Format W: `w = req[15:0]` (R65). -/
def wField (req : ReqWord) : HalfWord := req.extractLsb' 0 16

/-- The operation a request word presents (R61 to R65). Bits a format ignores are not looked at (R71). -/
def decode (req : ReqWord) : Instr :=
  if opField req = 0b000#3 then .nop
  else if opField req = 0b001#3 then .edge (levelField req) (ticksField req)
  else if opField req = 0b010#3 then (Event.ofCode (evField req)).instr
  else if opField req = 0b011#3 then .arm
  else if opField req = 0b100#3 then .take
  else if opField req = 0b101#3 then .xcmd (wField req)
  else if opField req = 0b110#3 then .xtog (wField req)
  else .xaddr (wField req)

/-- Why a number is rejected as a request. -/
inductive DecodeRefusal where
  /-- The number has a bit above bit 35, so it is no request word (R60). Safe: no port can carry it. -/
  | notARequestWord
deriving DecidableEq, Repr

/-- The operation that a number, taken as a request word, presents (R60; log entry 7). -/
def decodeNumber (n : Nat) : Except DecodeRefusal Instr :=
  if isRequestWord n then .ok (decode (BitVec.ofNat 36 n)) else .error .notARequestWord

/-- The operation read from an opcode-table word of `nbits` bits (log entry 7). -/
def decodeTableWord (nbits w : Nat) : Option Instr :=
  match decodeNumber (w % 2 ^ nbits) with
  | .ok i => some i
  | .error _ => none

/-- Format Z (R62), ignored bits 0. -/
def encodeZ (op : BitVec 3) : ReqWord := op ++ 0#33

/-- Format G (R63). -/
def encodeG (op : BitVec 3) (level : Bool) (ticks : Ticks) : ReqWord :=
  (op ++ BitVec.ofBool level) ++ ticks

/-- Format V (R64), ignored bits 0. -/
def encodeV (op : BitVec 3) (ev : Event) : ReqWord := (op ++ 0#31) ++ ev.code

/-- Format W (R65), ignored bits 0. -/
def encodeW (op : BitVec 3) (w : HalfWord) : ReqWord := (op ++ 0#17) ++ w

/-- The request word of an operation, ignored bits 0 (R61 to R65; log entry 8). -/
def encode : Instr → ReqWord
  | .nop => encodeZ 0b000#3
  | .edge level ticks => encodeG 0b001#3 level ticks
  | .evSS => encodeV 0b010#3 .ss
  | .evSP => encodeV 0b010#3 .sp
  | .evLS => encodeV 0b010#3 .ls
  | .evLP => encodeV 0b010#3 .lp
  | .arm => encodeZ 0b011#3
  | .take => encodeZ 0b100#3
  | .xcmd w => encodeW 0b101#3 w
  | .xtog w => encodeW 0b110#3 w
  | .xaddr w => encodeW 0b111#3 w

/-- The bits of a request word that are looked at, by operation code (R62 to R65): the operation code
and, by format, every bit (G), bits 1:0 (V), bits 15:0 (W), none (Z). -/
def readBits (req : ReqWord) : ReqWord :=
  if opField req = 0b001#3 then 0xFFFFFFFFF#36
  else if opField req = 0b010#3 then 0xE00000003#36
  else if opField req = 0b101#3 ∨ opField req = 0b110#3 ∨ opField req = 0b111#3 then 0xE0000FFFF#36
  else 0xE00000000#36

/-- The `mask` and `match` of an operation's row in opcode_table.json. -/
def tableRow : Instr → ReqWord × ReqWord
  | .nop => (0xE00000000#36, 0x000000000#36)
  | .edge _ _ => (0xE00000000#36, 0x200000000#36)
  | .evSS => (0xE00000003#36, 0x400000000#36)
  | .evSP => (0xE00000003#36, 0x400000001#36)
  | .evLS => (0xE00000003#36, 0x400000002#36)
  | .evLP => (0xE00000003#36, 0x400000003#36)
  | .arm => (0xE00000000#36, 0x600000000#36)
  | .take => (0xE00000000#36, 0x800000000#36)
  | .xcmd _ => (0xE00000000#36, 0xA00000000#36)
  | .xtog _ => (0xE00000000#36, 0xC00000000#36)
  | .xaddr _ => (0xE00000000#36, 0xE00000000#36)

end Sys2Proof
end

