-- ==== Sys2Proof/Config.lean ====
section
/-!
DEFINITION. What is fixed for the machine and no operation writes (spec/00_scope.md R10), and the
one free value of the model.
-/

namespace Sys2Proof.Config

/-- The `LOW_BOUND` that State.reset carries. The spec leaves the value OPEN (R10, R28, D10) and its
vectors use 1334 (R10). DESIGN CHOICE, unsafe, log entry 3: no statement rests on it. -/
def resetLowBound : Ticks := 1334#32

/-- The `HIGH_BOUND` that State.reset carries. The spec leaves the value OPEN (R10, R28, D10) and its
vectors use 2222 (R10). DESIGN CHOICE, unsafe, log entry 3: no statement rests on it. -/
def resetHighBound : Ticks := 2222#32

/-- FREE VALUE: the counter after a decrement at 0, for a given accumulator. `CNT - 1` is computed
only when `CNT >= 1` (41_decoder_fsm.md R123); the one state in which R90 would decrement at 0,
`BEGIN` with `CNT = 0`, is unreachable and the spec states no result (U3). DESIGN CHOICE, safe, log
entry 6. -/
opaque cntBelowZero : FrameWord → Count

end Sys2Proof.Config
end

