-- ==== Sys2Proof/Machine/State.lean ====
section
/-!
DEFINITION. The state of the decoder (spec/10_state.md R20: six registers), the two configuration values
it carries (R28), and the model's own fields: what the environment still presents at the port and what
the last cycle drove on the outputs (spec/30_encoding.md R78).
-/

namespace Sys2Proof.Machine

/-- The four states that have a row in the Transition Table (20_memory.md R43, 41_decoder_fsm.md R92).
"MID1/MID0 represent 'we are mid-bit-cell and the decoded bit value is 1/0'; START1/START0 represent
'we are at a bit-cell boundary, next decoded bit is 1/0'" (10_state.md R21). -/
inductive TableState where
  | start1 | mid1 | mid0 | start0
deriving DecidableEq, Repr

/-- The six values of `STATE` (R21). The codes 6 and 7 are excluded by the type (30_encoding.md R72). -/
inductive Ctrl where
  /-- START1, MID1, MID0 or START0 -/
  | table (t : TableState)
  /-- BEGIN, the idle or armed state -/
  | begin_
  /-- END, a full word decoded, awaiting ARM -/
  | end_
deriving DecidableEq, Repr

/-- The two protocol errors (60_exceptions.md R151, R152): labels for the model's trace only, which the
hardware neither stores nor outputs (R154, D18). -/
inductive ProtocolError where
  /-- ERR_SELF: undefined transition -/
  | self
  /-- ERR_OVERRUN: a fifteenth bit -/
  | overrun
deriving DecidableEq, Repr

/-- What one cycle drives on the outputs `rsp` and `tick_clr` (30_encoding.md R66, R78), and the trace
label of a protocol error raised in it (00_scope.md R12). -/
structure CycleOut where
  rsp : RspWord
  tickClr : Bool
  err : Option ProtocolError
deriving DecidableEq, Repr

/-- The outputs of a cycle that responds 0 and restarts no counter: NOP, an idle cycle, a reset cycle, a
masked event (R66, R79, R84). -/
def CycleOut.quiet : CycleOut := ⟨0#17, false, none⟩

/-- The input signals of one cycle (30_encoding.md R78). -/
structure Cycle where
  rst : Bool
  reqValid : Bool
  req : ReqWord
deriving DecidableEq, Repr

/-- The machine. `st`, `cnt`, `acc`, `word`, `avail`, `evtEn` are the registers STATE, CNT, ACC, WORD,
AVAIL, EVT_EN (10_state.md R20). -/
structure State where
  /-- STATE (R21) -/
  st : Ctrl
  /-- CNT, the bit-position counter (R22) -/
  cnt : Count
  /-- ACC, the command accumulator (R23) -/
  acc : FrameWord
  /-- WORD, the latch's decoded word (R25) -/
  word : FrameWord
  /-- AVAIL, the latch's flag (R26) -/
  avail : Bool
  /-- EVT_EN, event delivery (R27) -/
  evtEn : Bool
  /-- LOW_BOUND, configuration that no operation writes (R28; log entry 3) -/
  lowBound : Ticks
  /-- HIGH_BOUND, configuration that no operation writes (R28; log entry 3) -/
  highBound : Ticks
  /-- the MODEL's own: what the environment presents in the cycles to come (log entry 1) -/
  env : List Cycle
  /-- the MODEL's own: what the last cycle drove (log entry 2) -/
  out : CycleOut
deriving DecidableEq, Repr

/-- The reasons a step can fault: none. "No error is ever fatal to the enclosing system" (60_exceptions.md
R155): a protocol error is a next state (log entry 9). -/
inductive Fault where
deriving DecidableEq, Repr

/-- The reasons a step can be refused. -/
inductive Refusal where
  /-- An instruction that has no meaning yet; raised by `exec`'s arms only (none at present). Safe. -/
  | notModelled (mnemonic : String)
  /-- An event delivered (`EVT_EN = 1`) in END: "unreachable" and "given no behaviour" (41_decoder_fsm.md
  R101; 93_implementation_defined.md U3, treatment `refuse`). Raised by EDGE and EVENT. Safe (log entry 5). -/
  | eventInEnd
deriving DecidableEq, Repr

/-- The outcomes of a step of this machine. -/
abbrev Outcome := Host.Outcome State Fault Refusal

/-- The machine after hardware reset under the configuration `low`, `high` (10_state.md R35,
70_reset_and_hazards.md R180; outputs by 30_encoding.md R79), with nothing more presented. -/
def State.resetWith (low high : Ticks) : State :=
  { st := .begin_, cnt := 14, acc := 0#14, word := 0#14, avail := false, evtEn := false,
    lowBound := low, highBound := high, env := [], out := .quiet }

/-- The machine right after reset (R35), carrying the configuration of the spec's vectors (log entry 3). -/
def State.reset : State := State.resetWith Config.resetLowBound Config.resetHighBound

end Sys2Proof.Machine
end

