-- ==== Sys2Proof/Machine/Operands.lean ====
section
/-!
DEFINITION. What the operations compute from their operands alone: the Edge Classifier
(spec/40_edge_classifier.md R81 to R83), the fields of a word (spec/43_field_extraction.md R140), the
response word (spec/30_encoding.md R66), and the number of a control state (R68).
-/

namespace Sys2Proof.Machine

/-- `long`: the elapsed count falls strictly between the bounds, unsigned on 32 bits (R82). -/
def isLong (low high ticks : Ticks) : Bool := low.toNat < ticks.toNat && ticks.toNat < high.toNat

/-- The event `{long, pulse}` (R69, R83). -/
def eventOf (long pulse : Bool) : Event :=
  match long, pulse with
  | false, false => .ss
  | false, true => .sp
  | true, false => .ls
  | true, true => .lp

/-- `classify(level, ticks)`: `pulse = level` (R81), `long` by the window (R82, R83). -/
def classify (low high : Ticks) (level : Bool) (ticks : Ticks) : Event :=
  eventOf (isLong low high ticks) level

/-- Command bits, `w & 0x3F` (R141). -/
def commandBits (w : HalfWord) : HalfWord := w &&& 0x3F#16

/-- Toggle bit, `(w >> 11) & 1` (R142). -/
def toggleBit (w : HalfWord) : HalfWord := (w >>> 11) &&& 1#16

/-- Address bits, `(w >> 6) & 0x1F` (R143). -/
def addressBits (w : HalfWord) : HalfWord := (w >>> 6) &&& 0x1F#16

/-- The response `{1, value}` (R66). -/
def someRsp (value : HalfWord) : RspWord := 1#1 ++ value

/-- The response "nothing", `{0, 0}`, which is also the response of an operation that returns nothing
(R66). -/
def noRsp : RspWord := 0#17

/-- The number of a table state (30_encoding.md R68). -/
def TableState.code : TableState → BitVec 2
  | .start1 => 0#2
  | .mid1 => 1#2
  | .mid0 => 2#2
  | .start0 => 3#2

/-- The table state of a 2-bit number (R68). -/
def TableState.ofCode (c : BitVec 2) : TableState :=
  if c = 0#2 then .start1 else if c = 1#2 then .mid1 else if c = 2#2 then .mid0 else .start0

/-- The number of a control state (R68). -/
def Ctrl.code : Ctrl → BitVec 3
  | .table t => t.code.zeroExtend 3
  | .begin_ => 4#3
  | .end_ => 5#3

/-- The control state of a number; 6 and 7 are never held (R68, R72). -/
def Ctrl.ofCode? (c : BitVec 3) : Option Ctrl :=
  if c.toNat < 4 then some (.table (.ofCode (c.truncate 2)))
  else if c = 4#3 then some .begin_
  else if c = 5#3 then some .end_
  else none

/-- The trace code of a protocol error (60_exceptions.md R151, R152). -/
def ProtocolError.code : ProtocolError → Nat
  | .self => 1
  | .overrun => 2

end Sys2Proof.Machine
end

