-- ==== Sys2Proof/Machine/Flags.lean ====
section
/-!
DEFINITION. The block's one flag AVAIL (spec/10_state.md R26) with the conditions that set it, the
continuous outputs (spec/30_encoding.md R78), and the response TAKE makes of the flag
(spec/42_command_latch.md R131). There are no condition codes (R26).
-/

namespace Sys2Proof.Machine

/-- A bit is emitted exactly when the next state is MID0 or MID1 (41_decoder_fsm.md R95). -/
def emits (ns : TableState) : Bool :=
  match ns with
  | .mid0 => true
  | .mid1 => true
  | .start0 => false
  | .start1 => false

/-- The accepting values of the next state: START1 and MID0 (R98, R124). -/
def accepting (ns : TableState) : Bool :=
  match ns with
  | .start1 => true
  | .mid0 => true
  | .mid1 => false
  | .start0 => false

/-- Decoding is complete: the counter after this event's decrement is 0 and the next state is accepting
(R98). -/
def completes (ns : TableState) (cnt' : Count) : Bool := cnt' = 0 && accepting ns

/-- The output `available` (30_encoding.md R78). -/
def availableOut (s : State) : Bool := s.avail

/-- The output `evt_en` (R78). -/
def evtEnOut (s : State) : Bool := s.evtEn

/-- TAKE's response: `{1, zext_16(WORD)}` if AVAIL, else nothing (R131, R66). -/
def takeRsp (s : State) : RspWord :=
  if s.avail then someRsp (s.word.zeroExtend 16) else noRsp

end Sys2Proof.Machine
end

