-- ==== Sys2Proof/Machine/Ops.lean ====
section
/-!
DEFINITION. The operations the meanings share: the Transition Table (spec/20_memory.md R43), responding,
arming (spec/42_command_latch.md R130), raising a protocol error (spec/60_exceptions.md R153, this
hardware's exception entry; there is no return from one, R162), and `on_event` (spec/41_decoder_fsm.md
R90).
-/

namespace Sys2Proof.Machine

/-- The Transition Table `T[s][e]`, sixteen entries (41_decoder_fsm.md R93). An entry that is the state
itself is an undefined transition (R96). -/
def transition : TableState → Event → TableState
  | .start1, .ss => .mid1
  | .start1, .sp => .start1
  | .start1, .ls => .start1
  | .start1, .lp => .start1
  | .mid1, .ss => .mid1
  | .mid1, .sp => .start1
  | .mid1, .ls => .mid1
  | .mid1, .lp => .mid0
  | .mid0, .ss => .start0
  | .mid0, .sp => .mid0
  | .mid0, .ls => .mid1
  | .mid0, .lp => .mid0
  | .start0, .ss => .start0
  | .start0, .sp => .mid0
  | .start0, .ls => .start0
  | .start0, .lp => .start0

/-- The packed table `TBYTE[s]` (30_encoding.md R70). -/
def packedRow : TableState → BitVec 8
  | .start1 => 0x01#8
  | .mid1 => 0x91#8
  | .mid0 => 0x9B#8
  | .start0 => 0xFB#8

/-- The packed table's entry: `(TBYTE[s] >> (2 * e)) & 3` (R70). -/
def packedTransition (t : TableState) (ev : Event) : TableState :=
  .ofCode ((packedRow t).extractLsb' (2 * ev.code.toNat) 2)

/-- `CNT - 1`. At 0 the spec computes none (41_decoder_fsm.md R123): a free value (log entry 6). -/
def decrement (cnt : Count) (acc : FrameWord) : Count :=
  if cnt.val = 0 then Config.cntBelowZero acc else ⟨cnt.val - 1, by omega⟩

/-- `ACC | (1 << k)` (00_scope.md R12). -/
def setBit (acc : FrameWord) (k : Count) : FrameWord := acc ||| (1#14 <<< k.val)

/-- `respond(rsp)` of an operation that restarts no counter: the outputs of the cycle (R66, R84). -/
def respond (rsp : RspWord) (s : State) : State := { s with out := ⟨rsp, false, none⟩ }

/-- `tick_clr = 1` and `respond(0)`: the outputs of a delivered event without an error (R84, R100). -/
def delivered (s : State) : State := { s with out := ⟨noRsp, true, none⟩ }

/-- `do_arm()` (42_command_latch.md R130). -/
def doArm (s : State) : State :=
  { s with st := .begin_, cnt := 14, acc := 0#14, word := 0#14, avail := false, evtEn := true }

/-- `raise ProtocolError(kind)` inside a delivered event: `do_arm()` and nothing else, with `tick_clr = 1`
and the kind in the model's trace (60_exceptions.md R153, 00_scope.md R12). -/
def raiseError (kind : ProtocolError) (s : State) : State :=
  { doArm s with out := ⟨noRsp, true, some kind⟩ }

/-- The first edge after arming: the leading sync bit is emitted as 1 without consulting the table
(41_decoder_fsm.md R90, the special case). -/
def firstSync (s : State) : State :=
  delivered { s with
    cnt := decrement s.cnt s.acc
    acc := setBit s.acc (decrement s.cnt s.acc)
    st := .table .mid1 }

/-- The completion step: STATE, WORD, AVAIL and EVT_EN are written together (R98, 20_memory.md R45). -/
def complete (cnt' : Count) (acc' : FrameWord) (s : State) : State :=
  delivered { s with st := .end_, cnt := cnt', acc := acc', word := acc', avail := true, evtEn := false }

/-- The plain transition to `ns` (R99). -/
def advance (ns : TableState) (cnt' : Count) (acc' : FrameWord) (s : State) : State :=
  delivered { s with st := .table ns, cnt := cnt', acc := acc' }

/-- The counter after bit emission: decremented when the next state is MID0 or MID1 (R95). -/
def emittedCnt (ns : TableState) (cnt : Count) (acc : FrameWord) : Count :=
  if emits ns then decrement cnt acc else cnt

/-- The accumulator after bit emission: bit `cnt'` is set when the next state is MID1 (R95). -/
def emittedAcc (ns : TableState) (cnt : Count) (acc : FrameWord) : FrameWord :=
  if ns = .mid1 then setBit acc (emittedCnt ns cnt acc) else acc

/-- The general case of `on_event` in table state `t` (R90, R92), checks in the order of R160. -/
def tableEvent (t : TableState) (ev : Event) (s : State) : State :=
  let ns := transition t ev
  let cnt' := emittedCnt ns s.cnt s.acc
  let acc' := emittedAcc ns s.cnt s.acc
  if ns = t then raiseError .self s
  else if emits ns && s.cnt = 0 then raiseError .overrun s
  else if completes ns cnt' then complete cnt' acc' s
  else advance ns cnt' acc' s

/-- `on_event(ev)` with `respond(0)` (41_decoder_fsm.md R90, R118 to R121). A masked event does nothing
(R91); an event delivered in END has no behaviour (R101; log entry 5). -/
def onEvent (ev : Event) (s : State) : Outcome :=
  if s.evtEn then
    match s.st with
    | .begin_ => .next (firstSync s)
    | .table t => .next (tableEvent t ev s)
    | .end_ => .refused .eventInEnd
  else .next (respond noRsp s)

end Sys2Proof.Machine
end

