-- ==== Sys2Proof/Machine/Edge.lean ====
section
/-!
DEFINITION. The EDGE family (spec/40_edge_classifier.md).
-/

namespace Sys2Proof.Machine

/-- `EDGE level, ticks` (R80): a masked edge does nothing (R86), else `classify` (R81 to R83) and
`on_event`, which restarts the elapsed-time counter (R84). -/
def execEdge (level : Bool) (ticks : Ticks) (s : State) : Outcome :=
  if s.evtEn then onEvent (classify s.lowBound s.highBound level ticks) s
  else .next (respond noRsp s)

end Sys2Proof.Machine
end

