-- ==== Sys2Proof/Machine/Events.lean ====
section
/-!
DEFINITION. The EVENT family (spec/41_decoder_fsm.md R118 to R121).
-/

namespace Sys2Proof.Machine

/-- `EV.SS`, short-space (R118). -/
def execEvSS (s : State) : Outcome := onEvent .ss s

/-- `EV.SP`, short-pulse (R119). -/
def execEvSP (s : State) : Outcome := onEvent .sp s

/-- `EV.LS`, long-space (R120). -/
def execEvLS (s : State) : Outcome := onEvent .ls s

/-- `EV.LP`, long-pulse (R121). -/
def execEvLP (s : State) : Outcome := onEvent .lp s

end Sys2Proof.Machine
end

