-- ==== Sys2Proof/Machine/Fields.lean ====
section
/-!
DEFINITION. The field extraction family: XCMD, XTOG, XADDR (spec/43_field_extraction.md), pure functions
of the operand (R144).
-/

namespace Sys2Proof.Machine

/-- `XCMD w` (R141). -/
def execXcmd (w : HalfWord) (s : State) : Outcome := .next (respond (someRsp (commandBits w)) s)

/-- `XTOG w` (R142). -/
def execXtog (w : HalfWord) (s : State) : Outcome := .next (respond (someRsp (toggleBit w)) s)

/-- `XADDR w` (R143). -/
def execXaddr (w : HalfWord) (s : State) : Outcome := .next (respond (someRsp (addressBits w)) s)

end Sys2Proof.Machine
end

