-- ==== Sys2Proof/Machine/Latch.lean ====
section
/-!
DEFINITION. The latch and control family: NOP, ARM, TAKE (spec/42_command_latch.md).
-/

namespace Sys2Proof.Machine

/-- `NOP` (R133): no register changes, `rsp = 0`, `tick_clr = 0`. -/
def execNop (s : State) : Outcome := .next (respond noRsp s)

/-- `ARM` (R130): `do_arm()`, `respond(0)`, accepted in every state. -/
def execArm (s : State) : Outcome := .next (respond noRsp (doArm s))

/-- `TAKE` (R131): the latch word if AVAIL, else nothing; no state is written. -/
def execTake (s : State) : Outcome := .next (respond (takeRsp s) s)

end Sys2Proof.Machine
end

