-- ==== Sys2Proof/Machine/Dispatch.lean ====
section
/-!
DEFINITION. The meaning of every operation (spec/30_encoding.md R61): one arm per constructor of Instr.
-/

namespace Sys2Proof.Machine

def exec (i : Instr) (s : State) : Host.Outcome State Fault Refusal :=
  match i with
  | .nop => Sys2Proof.Machine.execNop s
  | .edge level ticks => Sys2Proof.Machine.execEdge level ticks s
  | .evSS => Sys2Proof.Machine.execEvSS s
  | .evSP => Sys2Proof.Machine.execEvSP s
  | .evLS => Sys2Proof.Machine.execEvLS s
  | .evLP => Sys2Proof.Machine.execEvLP s
  | .arm => Sys2Proof.Machine.execArm s
  | .take => Sys2Proof.Machine.execTake s
  | .xcmd w => Sys2Proof.Machine.execXcmd w s
  | .xtog w => Sys2Proof.Machine.execXtog w s
  | .xaddr w => Sys2Proof.Machine.execXaddr w s

end Sys2Proof.Machine
end

