-- ==== Sys2Proof/Machine/Port.lean ====
section
/-!
DEFINITION. One cycle at the port (spec/30_encoding.md R78, R79): the cycle the environment presents next,
hardware reset, an idle cycle, and a request.
-/

namespace Sys2Proof.Machine

/-- A cycle with `rst = 0` and `req_valid = 0` (R78, R79). -/
def Cycle.idle : Cycle := ⟨false, false, 0#36⟩

/-- A cycle that presents the request word `req` (R78). -/
def Cycle.request (req : ReqWord) : Cycle := ⟨false, true, req⟩

/-- A cycle with `rst = 1` (R78, R79). -/
def Cycle.reset : Cycle := ⟨true, false, 0#36⟩

/-- The cycle presented next: the first of `env`, or an idle cycle when nothing more is presented (log
entry 1). -/
def presented (s : State) : Cycle := s.env.headD .idle

/-- The state once the environment has moved on to the cycles after the presented one. -/
def moveOn (s : State) : State := { s with env := s.env.tail }

/-- Hardware reset (70_reset_and_hazards.md R180, 30_encoding.md R79): the registers take their reset
values, the configuration is not touched, `rsp = 0` and `tick_clr = 0`. -/
def hardReset (s : State) : State :=
  { State.resetWith s.lowBound s.highBound with env := s.env }

/-- One cycle (R79): reset wins over the request; a request is performed once; otherwise nothing
changes, as in NOP (R78, R133). -/
def runCycle (c : Cycle) (s : State) : Outcome :=
  if c.rst then .next (hardReset s)
  else if c.reqValid then exec (decode c.req) s
  else .next (respond noRsp s)

/-- Present the table word `w` of `nbits` bits in the next cycle, in place of what the environment
presents there (log entries 1, 7). -/
def presentWord (s : State) (nbits w : Nat) : State :=
  { s with env := Cycle.request (BitVec.ofNat 36 (w % 2 ^ nbits)) :: s.env.tail }

end Sys2Proof.Machine
end

