-- ==== Sys2Proof/Machine/Step.lean ====
section
/-!
DEFINITION. One step of the machine: one cycle (spec/30_encoding.md R78, R79).
-/

namespace Sys2Proof.Machine

/-- The presented cycle, run on the state in which the environment has moved on. -/
def step (s : State) : Host.Outcome State Fault Refusal := runCycle (presented s) (moveOn s)

/-- `s` with the request word `w` presented in the next cycle. -/
def State.withFetchWord (s : State) (nbits w : Nat) : State := presentWord s nbits w

end Sys2Proof.Machine
end

