-- ==== Sys2Proof/Machine/Frame.lean ====
section
/-!
DEFINITION. The pseudo-operation `FRAME w, first, h` (spec/30_encoding.md R77): the EDGE sequence that a
well-formed RC5 transmission of the 14-bit word `w` presents to the block.
-/

namespace Sys2Proof.Machine

/-- What the line carries during a half cell: no carrier (line high) or carrier (line low) (00_scope.md
R14). -/
inductive Half where
  | space | pulse
deriving DecidableEq, Repr

/-- A 1 is space then pulse, a 0 is pulse then space (R77). -/
def bitHalves (b : Bool) : List Half := if b then [.space, .pulse] else [.pulse, .space]

/-- The bits of a word, the first transmitted, bit 13, first (R41, R77). -/
def frameBitList (w : FrameWord) : List Bool := (List.range 14).map fun n => w.getLsbD (13 - n)

/-- The half cells of a frame and the idle line after it (R77). -/
def frameHalves (w : FrameWord) : List Half := (frameBitList w).flatMap bitHalves ++ [.space]

/-- The `ticks` operand of an edge at the start of half cell `i`: `first` for the first edge, else the
half cells since the edge at half cell `j`, times `h` (R77). -/
def edgeTicks (first : Ticks) (h i : Nat) (last : Option Nat) : Ticks :=
  match last with
  | none => first
  | some j => BitVec.ofNat 32 ((i - j) * h)

/-- The edges of a line that was at `prev` and carries the half cells `hs` from half cell `i` on, the
last edge having been at half cell `last` (R77). A pulse that has just ended leaves the line high. -/
def edgesOf (first : Ticks) (h : Nat) : (hs : List Half) → (i : Nat) → (prev : Half) →
    (last : Option Nat) → List Instr
  | [], _, _, _ => []
  | x :: hs, i, prev, last =>
    if x = prev then edgesOf first h hs (i + 1) prev last
    else .edge (decide (prev = .pulse)) (edgeTicks first h i last) :: edgesOf first h hs (i + 1) x (some i)

/-- `FRAME w, first, h` (R77), on a line that idles in space. -/
def frameOps (w : FrameWord) (first : Ticks) (h : Nat) : List Instr :=
  edgesOf first h (frameHalves w) 0 .space none

end Sys2Proof.Machine
end

