-- ==== Sys2Proof/Machine/Trace.lean ====
section
/-!
DEFINITION. The trace notation (spec/30_encoding.md R75), the aliases of doc00's function names (R76), and
the operations that a line stands for. What R75 does not say of the notation is log entry 13.
-/

namespace Sys2Proof.Machine

/-- Why a line is not read. -/
inductive TraceError where
  /-- The name is no mnemonic of R75 and no alias of R76. -/
  | unknownName
  /-- An operand is no number of R75. -/
  | badNumber
  /-- The operands do not fit the operation (R62 to R65, R77). -/
  | illFormed
deriving DecidableEq, Repr

/-- The names that may open a line: the mnemonics of R75, FRAME (R77) and the aliases of R76. -/
def lineNames : List (List Char × LineOp) :=
  [("NOP", .nop), ("EDGE", .edge), ("EV.SS", .evSS), ("EV.SP", .evSP), ("EV.LS", .evLS),
    ("EV.LP", .evLP), ("ARM", .arm), ("TAKE", .take), ("XCMD", .xcmd), ("XTOG", .xtog),
    ("XADDR", .xaddr), ("FRAME", .frame),
    ("edge_event", .edge), ("on_event(short-space)", .evSS), ("on_event(short-pulse)", .evSP),
    ("on_event(long-space)", .evLS), ("on_event(long-pulse)", .evLP), ("arm", .arm), ("reset", .arm),
    ("reset_decoder", .arm), ("RESET", .arm), ("try_take", .take), ("try_take_command", .take),
    ("extract_command_bits", .xcmd), ("extract_toggle", .xtog),
    ("extract_address", .xaddr)].map fun p => (p.1.toList, p.2)

/-- The value of a digit in base `base`; the letters of hexadecimal digits are of either case (log entry
13, DESIGN CHOICE). -/
def digit? (base : Nat) (c : Char) : Option Nat :=
  let n := c.toNat
  let v := if 48 ≤ n ∧ n ≤ 57 then n - 48
    else if 65 ≤ n ∧ n ≤ 70 then n - 55
    else if 97 ≤ n ∧ n ≤ 102 then n - 87
    else base
  if v < base then some v else none

/-- The number that digits write, after `acc`; `_` is a visual separator (00_scope.md R11), and stands
before or after any digit (log entry 13, DESIGN CHOICE). -/
def digits? (base : Nat) : List Char → Nat → Option Nat
  | [], acc => some acc
  | c :: cs, acc =>
    if c = '_' then digits? base cs acc
    else (digit? base c).bind fun v => digits? base cs (acc * base + v)

/-- The digits of a literal after its prefix. A literal with no digit (nothing, or only `_`) is no number:
neither R75 nor R11 says so (log entry 13, DESIGN CHOICE). -/
def literal? (base : Nat) (cs : List Char) : Option Nat :=
  if cs.all (· = '_') then none else digits? base cs 0

/-- A number: decimal, `0x` hexadecimal or `0b` binary (R75). -/
def number? : List Char → Option Nat
  | '0' :: 'x' :: cs => literal? 16 cs
  | '0' :: 'b' :: cs => literal? 2 cs
  | cs => literal? 10 cs

/-- A text without the spaces at its ends. -/
def trim (cs : List Char) : List Char :=
  ((cs.dropWhile (· = ' ')).reverse.dropWhile (· = ' ')).reverse

/-- The fields of an operand list, separated by commas. -/
def commaFields : List Char → List (List Char)
  | [] => [[]]
  | c :: cs =>
    if c = ',' then [] :: commaFields cs
    else
      match commaFields cs with
      | [] => [[c]]
      | f :: fs => (c :: f) :: fs

/-- A line without the name of the issuing context, which has no effect (R75). One prefix is read, at the
head of the line, its colon next to its letter (log entry 13, DESIGN CHOICE). -/
def dropContext : List Char → List Char
  | 'P' :: ':' :: cs => cs
  | 'C' :: ':' :: cs => cs
  | cs => cs

/-- A line of the notation (R75): none where only blanks and a comment stand. Where blanks may stand, and
that such a line is read as no operation, is log entry 13 (DESIGN CHOICE). -/
def parseLine (line : List Char) : Except TraceError (Option TraceLine) :=
  let body := trim (dropContext (trim (line.takeWhile (· ≠ ';'))))
  let name := body.takeWhile (· ≠ ' ')
  let rest := trim (body.dropWhile (· ≠ ' '))
  if body = [] then .ok none
  else
    match lineNames.lookup name with
    | none => .error .unknownName
    | some op =>
      match (if rest = [] then some [] else (commaFields rest).mapM fun f => number? (trim f)) with
      | none => .error .badNumber
      | some args => if TraceLine.wellFormed ⟨op, args⟩ then .ok (some ⟨op, args⟩) else .error .illFormed

/-- The operations a line stands for: one, or the edges of a FRAME (R75, R77); none where the line is
not well formed. -/
def lineOps (l : TraceLine) : Option (List Instr) :=
  if l.wellFormed then
    match l.op, l.args with
    | .nop, _ => some [.nop]
    | .edge, [level, ticks] => some [.edge (decide (level = 1)) (BitVec.ofNat 32 ticks)]
    | .evSS, _ => some [.evSS]
    | .evSP, _ => some [.evSP]
    | .evLS, _ => some [.evLS]
    | .evLP, _ => some [.evLP]
    | .arm, _ => some [.arm]
    | .take, _ => some [.take]
    | .xcmd, [w] => some [.xcmd (BitVec.ofNat 16 w)]
    | .xtog, [w] => some [.xtog (BitVec.ofNat 16 w)]
    | .xaddr, [w] => some [.xaddr (BitVec.ofNat 16 w)]
    | .frame, [w, first, h] => some (frameOps (BitVec.ofNat 14 w) (BitVec.ofNat 32 first) h)
    | _, _ => none
  else none

end Sys2Proof.Machine
end

