-- ==== Sys2Proof/Safety.lean ====
section
/-!
DEFINITION. The terms claims are stated in: a sequence of operations (spec/20_memory.md R49), the
invariants of the reachable state (spec/10_state.md R29), and the states that the operations accept.
-/

namespace Sys2Proof.Machine

/-- The result of a sequence of operations: each applied to the state the one before left (R49). -/
def runOps : List Instr → State → Outcome
  | [], s => .next s
  | i :: is, s =>
    match exec i s with
    | .next s' => runOps is s'
    | .fault r => .fault r
    | .refused r => .refused r

/-- The operations that deliver an event: EDGE and EVENT, the producer's (60_exceptions.md R164). -/
def isEventOp : Instr → Bool
  | .edge _ _ => true
  | .evSS => true
  | .evSP => true
  | .evLS => true
  | .evLP => true
  | .nop => false
  | .arm => false
  | .take => false
  | .xcmd _ => false
  | .xtog _ => false
  | .xaddr _ => false

/-- The event an operation delivers in a state: an EDGE's is classified (40_edge_classifier.md R80). -/
def eventIn (i : Instr) (s : State) : Option Event :=
  match i with
  | .edge level ticks => some (classify s.lowBound s.highBound level ticks)
  | .evSS => some .ss
  | .evSP => some .sp
  | .evLS => some .ls
  | .evLP => some .lp
  | .nop => none
  | .arm => none
  | .take => none
  | .xcmd _ => none
  | .xtog _ => none
  | .xaddr _ => none

/-- R29 item 2: `STATE = BEGIN` implies `CNT = 14`, `ACC = 0`, `AVAIL = 0`, `WORD = 0`. -/
abbrev State.BeginInv (s : State) : Prop :=
  s.st = .begin_ → s.cnt = 14 ∧ s.acc = 0#14 ∧ s.avail = false ∧ s.word = 0#14

/-- R29 item 3: END if and only if AVAIL, and what END implies. -/
abbrev State.EndInv (s : State) : Prop :=
  (s.st = .end_ ↔ s.avail = true) ∧
    (s.st = .end_ → s.cnt = 0 ∧ s.word = s.acc ∧ s.evtEn = false ∧ s.word.getLsbD 13 = true)

/-- R29 item 4: `AVAIL = 0` implies `WORD = 0`. -/
abbrev State.LatchInv (s : State) : Prop := s.avail = false → s.word = 0#14

/-- R29 items 6, 7, 8 for table state `t`: `CNT <= 13`, `ACC[13] = 1`, nothing set below bit CNT, the last
emitted bit at bit CNT, and `CNT = 0` in MID1 only. -/
abbrev State.CellInv (s : State) (t : TableState) : Prop :=
  s.cnt.val ≤ 13 ∧ s.acc.getLsbD 13 = true ∧
    (∀ k, k < s.cnt.val → s.acc.getLsbD k = false) ∧
    s.acc.getLsbD s.cnt.val = decide (t = .mid1 ∨ t = .start1) ∧
    (s.cnt = 0 → t = .mid1)

/-- The four table states. -/
abbrev tableStates : List TableState := [.start1, .mid1, .mid0, .start0]

/-- R29 items 6 to 8, whichever table state is held. -/
abbrev State.TableInv (s : State) : Prop := ∀ t ∈ tableStates, s.st = .table t → s.CellInv t

/-- R29 item 5, the part that holds before the first ARM too: events are masked in END or in the reset
state only. -/
abbrev State.MaskInv (s : State) : Prop := s.evtEn = false → s.st = .end_ ∨ s.st = .begin_

/-- The invariants of the reachable state (R29). Item 1, `0 <= CNT <= 14`, holds by CNT's type. -/
abbrev State.Inv (s : State) : Prop :=
  s.BeginInv ∧ s.EndInv ∧ s.LatchInv ∧ s.TableInv ∧ s.MaskInv

/-- R29 item 5 after the first ARM: `EVT_EN = 0` if and only if `STATE = END`. -/
abbrev State.Armed (s : State) : Prop := s.evtEn = false ↔ s.st = .end_

/-- The state accepts every operation: no event would be delivered in END (41_decoder_fsm.md R101). -/
abbrev State.Accepts (s : State) : Prop := ¬(s.st = .end_ ∧ s.evtEn = true)

end Sys2Proof.Machine
end

