-- ==== Sys2Proof/Certificates/Slice0/Obligations.lean ====
section
/-!
DEFINITION. The statements about the RC5 decoder, for the provers. Rules R<n> are those of spec/. A
statement that gives a whole next state by a record update says the frame too: every register, the
configuration and the environment not named are as before.
-/

open Sys2Proof Sys2Proof.Machine

/-! ### Request words -/

/-- R62 to R65, R71: what each of the eight operation codes decodes to, from the fields of its format
alone; bits a format ignores are not looked at. -/
def Obligations.RequestFieldsDecode : Prop :=
  ∀ r : ReqWord,
    (r.extractLsb' 33 3 = 0b000#3 → decode r = .nop) ∧
    (r.extractLsb' 33 3 = 0b001#3 → decode r = .edge (r.getLsbD 32) (r.extractLsb' 0 32)) ∧
    (r.extractLsb' 33 3 = 0b010#3 →
      (r.extractLsb' 0 2 = 0b00#2 → decode r = .evSS) ∧
      (r.extractLsb' 0 2 = 0b01#2 → decode r = .evSP) ∧
      (r.extractLsb' 0 2 = 0b10#2 → decode r = .evLS) ∧
      (r.extractLsb' 0 2 = 0b11#2 → decode r = .evLP)) ∧
    (r.extractLsb' 33 3 = 0b011#3 → decode r = .arm) ∧
    (r.extractLsb' 33 3 = 0b100#3 → decode r = .take) ∧
    (r.extractLsb' 33 3 = 0b101#3 → decode r = .xcmd (r.extractLsb' 0 16)) ∧
    (r.extractLsb' 33 3 = 0b110#3 → decode r = .xtog (r.extractLsb' 0 16)) ∧
    (r.extractLsb' 33 3 = 0b111#3 → decode r = .xaddr (r.extractLsb' 0 16))

/-- R60 to R67: every well-formed operation is read back from its request word, and every request word is
written back from its operation, but for the bits its format ignores (R71). That the encoder writes 0 in
those bits is the model's choice (log entry 8). -/
def Obligations.DecodeAndEncodeAgree : Prop :=
  (∀ i : Instr, i.wellFormed = true → decode (encode i) = i) ∧
  (∀ r : ReqWord, encode (decode r) = r &&& readBits r)

/-- The request words the spec writes out (R80, R118 to R121, R130, R131, R133, R141 to R143) decode to the
operations they stand for. -/
def Obligations.SpecRequestWordsDecode : Prop :=
  decode 0x000000000#36 = .nop ∧ decode 0x300000379#36 = .edge true 889#32 ∧
  decode 0x400000000#36 = .evSS ∧ decode 0x400000001#36 = .evSP ∧
  decode 0x400000002#36 = .evLS ∧ decode 0x400000003#36 = .evLP ∧
  decode 0x600000000#36 = .arm ∧ decode 0x800000000#36 = .take ∧
  decode 0xA00003410#36 = .xcmd 0x3410#16 ∧ decode 0xC00003410#36 = .xtog 0x3410#16 ∧
  decode 0xE00003410#36 = .xaddr 0x3410#16

/-- R60: a request word has exactly 36 bits; the model refuses a number with a bit above bit 35 by name, and
nothing else. The refusal is the model's choice (log entry 7). -/
def Obligations.OnlyTooWideNumbersRejected : Prop :=
  ∀ n : Nat, (n < 2 ^ 36 → decodeNumber n = .ok (decode (BitVec.ofNat 36 n))) ∧
    (2 ^ 36 ≤ n → decodeNumber n = .error .notARequestWord)

/-- R68, R69: the numbers of the states and of the events; 6 and 7 are no state. -/
def Obligations.StateAndEventNumbers : Prop :=
  (Ctrl.table .start1).code = 0#3 ∧ (Ctrl.table .mid1).code = 1#3 ∧ (Ctrl.table .mid0).code = 2#3 ∧
  (Ctrl.table .start0).code = 3#3 ∧ Ctrl.begin_.code = 4#3 ∧ Ctrl.end_.code = 5#3 ∧
  (∀ c : Ctrl, c.code ≠ 6#3 ∧ c.code ≠ 7#3 ∧ Ctrl.ofCode? c.code = some c) ∧
  Ctrl.ofCode? 6#3 = none ∧ Ctrl.ofCode? 7#3 = none ∧
  Event.ss.code = 0#2 ∧ Event.sp.code = 1#2 ∧ Event.ls.code = 2#2 ∧ Event.lp.code = 3#2 ∧
  (∀ long pulse : Bool, (eventOf long pulse).code = BitVec.ofBool long ++ BitVec.ofBool pulse) ∧
  (∀ e : Event, Event.ofCode e.code = e)

/-- R70, R93: the packed bytes give the sixteen entries of the table, and exactly six entries differ from
their own state. -/
def Obligations.PackedTableIsTheTable : Prop :=
  (∀ (t : TableState) (e : Event), packedTransition t e = transition t e) ∧
  (∀ (t : TableState) (e : Event), transition t e ≠ t ↔
    (t, e) ∈ [(TableState.start1, Event.ss), (.mid1, .sp), (.mid1, .lp), (.mid0, .ss), (.mid0, .ls),
      (.start0, .sp)])

/-- R75: the line of the trace notation that writes an operation stands for that operation alone. What the
notation leaves open is log entry 13. -/
def Obligations.TraceLineStandsForItsOperation : Prop :=
  ∀ i : Instr, i.wellFormed = true ∧ lineOps i.line = some [i]

/-! ### The cycle, the step, reset -/

/-- R79: a cycle with `rst = 1` ignores the request and resets, a cycle with a valid request performs it
once, any other cycle changes nothing and, as R133 says, has the outputs of NOP. The field `env` is the
model's own (log entry 1). -/
def Obligations.CycleResetsRunsOrIdles : Prop :=
  ∀ (s : State) (c : Cycle) (rest : List Cycle), s.env = c :: rest →
    (c.rst = true → step s = .next { s with
      st := .begin_, cnt := 14, acc := 0#14, word := 0#14, avail := false, evtEn := false,
      env := rest, out := ⟨0#17, false, none⟩ }) ∧
    (c.rst = false → c.reqValid = true → step s = exec (decode c.req) { s with env := rest }) ∧
    (c.rst = false → c.reqValid = false →
      step s = .next { s with env := rest, out := ⟨0#17, false, none⟩ })

/-- The model's choice (log entry 1): once the environment presents nothing more, every cycle is idle and
the registers keep their values, as they do for any length of time by R156 and R172. -/
def Obligations.NothingPresentedChangesNothing : Prop :=
  ∀ s : State, s.env = [] → step s = .next { s with out := ⟨0#17, false, none⟩ }

/-- A step runs the decoded operation: with the request word of a well-formed operation presented, the
decoder reads that operation from it and the step is its `exec` on the state in which the environment has
moved on by that one cycle. -/
def Obligations.StepRunsThePresentedOperation : Prop :=
  ∀ (i : Instr) (s : State), i.wellFormed = true →
    decodeTableWord 36 (encode i).toNat = some i ∧
    step (s.withFetchWord 36 (encode i).toNat) = exec i { s with env := s.env.tail }

/-- R35, R180: the reset values, the configuration untouched; the one ARM of start-up then leaves every
register so, but for `EVT_EN = 1`. -/
def Obligations.ResetValues : Prop :=
  ∀ low high : Ticks,
    let s := State.resetWith low high
    s.st = .begin_ ∧ s.cnt = 14 ∧ s.acc = 0#14 ∧ s.avail = false ∧ s.word = 0#14 ∧ s.evtEn = false ∧
    s.lowBound = low ∧ s.highBound = high ∧
    (∀ (u : State) (c : Cycle) (rest : List Cycle), u.env = c :: rest → c.rst = true →
      u.lowBound = low → u.highBound = high → step u = .next { s with env := rest }) ∧
    exec .arm s = .next { s with evtEn := true }

/-- R181: reset and ARM differ in `EVT_EN` alone. In the reset state every EDGE and EVENT is discarded, TAKE
returns nothing, and the helpers work as in every state. -/
def Obligations.ResetDiffersFromArmInEventEnable : Prop :=
  ∀ (low high : Ticks),
    let s := State.resetWith low high
    s.evtEn = false ∧ exec .arm s = .next { s with evtEn := true } ∧
    (∀ i, isEventOp i = true → exec i s = .next s) ∧
    exec .take s = .next { s with out := ⟨0#17, false, none⟩ } ∧
    (∀ (w : HalfWord) (u : State), ∃ a b c : RspWord,
      exec (.xcmd w) s = .next { s with out := ⟨a, false, none⟩ } ∧
      exec (.xcmd w) u = .next { u with out := ⟨a, false, none⟩ } ∧
      exec (.xtog w) s = .next { s with out := ⟨b, false, none⟩ } ∧
      exec (.xtog w) u = .next { u with out := ⟨b, false, none⟩ } ∧
      exec (.xaddr w) s = .next { s with out := ⟨c, false, none⟩ } ∧
      exec (.xaddr w) u = .next { u with out := ⟨c, false, none⟩ })

/-! ### Invariants -/

/-- R29 holds of the state after reset, under every configuration. -/
def Obligations.ResetMeetsTheInvariant : Prop :=
  State.reset.Inv ∧ ∀ low high : Ticks, (State.resetWith low high).Inv

/-- R29, items 1 to 8: every step keeps the invariant of the reachable state. -/
def Obligations.EveryStepKeepsTheInvariant : Prop :=
  ∀ s t : State, s.Inv → step s = .next t → t.Inv

/-- R29 item 5: ARM makes events masked in END only, and every operation keeps it so. -/
def Obligations.MaskedOnlyInEndAfterArm : Prop :=
  (∀ s t : State, exec .arm s = .next t → t.Armed) ∧
  (∀ (i : Instr) (s t : State), s.Inv → s.Armed → exec i s = .next t → t.Armed)

/-- R155: no error is fatal. From a state that meets the invariant no run of any length stops, whatever the
environment presents, and ARM is accepted and leads to the armed state. -/
def Obligations.RunNeverStops : Prop :=
  ∀ (n : Nat) (s : State), s.Inv →
    ∃ t : State, Host.Core.run Sys2Proof.core n s = .next t ∧ t.Inv ∧
      exec .arm t = .next { t with
        st := .begin_, cnt := 14, acc := 0#14, word := 0#14, avail := false, evtEn := true,
        out := ⟨0#17, false, none⟩ }

/-- R126: every word that TAKE can return has `WORD[13] = 1`. -/
def Obligations.LatchedWordStartsWithOne : Prop :=
  ∀ (i : Instr) (s t : State), s.Inv → exec i s = .next t → t.avail = true →
    t.word.getLsbD 13 = true ∧
    exec .take t = .next { t with out := ⟨1#1 ++ t.word.zeroExtend 16, false, none⟩ }

/-! ### NOP, ARM, TAKE -/

/-- R133: NOP, whose request word is 0, changes no register and responds 0; a cycle with `req_valid = 0`
is the same. -/
def Obligations.NopChangesNoRegister : Prop :=
  encode .nop = 0x000000000#36 ∧ decode 0x000000000#36 = .nop ∧
  (∀ s : State, exec .nop s = .next { s with out := ⟨0#17, false, none⟩ }) ∧
  (∀ (s : State) (req : ReqWord) (rest : List Cycle),
    s.env = ⟨false, false, req⟩ :: rest → step s = exec .nop { s with env := rest })

/-- R130: ARM gives the armed state from every state, with `tick_clr = 0` and response 0. -/
def Obligations.ArmGivesTheArmedState : Prop :=
  encode .arm = 0x600000000#36 ∧ decode 0x600000000#36 = .arm ∧
  ∀ s : State, exec .arm s = .next { s with
    st := .begin_, cnt := 14, acc := 0#14, word := 0#14, avail := false, evtEn := true,
    out := ⟨0#17, false, none⟩ }

/-- R131: TAKE responds `{1, zext_16(WORD)}` if AVAIL, else 0, and writes no register; in the reset state and
in every reachable state but END it returns nothing. -/
def Obligations.TakeReadsTheLatch : Prop :=
  encode .take = 0x800000000#36 ∧ decode 0x800000000#36 = .take ∧
  (∀ s : State, s.avail = true →
    exec .take s = .next { s with out := ⟨0x10000#17 ||| s.word.zeroExtend 17, false, none⟩ }) ∧
  (∀ s : State, s.avail = false → exec .take s = .next { s with out := ⟨0#17, false, none⟩ }) ∧
  (∀ s : State, s.Inv → s.st ≠ .end_ → exec .take s = .next { s with out := ⟨0#17, false, none⟩ }) ∧
  exec .take State.reset = .next { State.reset with out := ⟨0#17, false, none⟩ } ∧
  (∀ s : State, s.avail = true → s.word = 0x3410#14 → ∃ t u : State,
    exec .take s = .next t ∧ t.out.rsp = 0x13410#17 ∧ exec .take t = .next u ∧ u.out.rsp = 0x13410#17)

/-- R132, R195: two TAKEs in a row answer alike; and while a word is available, no sequence of operations
without an ARM, the producer's among them, stops, writes a register or changes what TAKE answers. -/
def Obligations.TakeAnswersAlikeUntilArm : Prop :=
  (∀ s t u : State, exec .take s = .next t → exec .take t = .next u → u = t) ∧
  (∀ (is : List Instr) (s : State), s.Inv → s.avail = true → Instr.arm ∉ is →
    ∃ o : CycleOut, runOps is s = .next { s with out := o } ∧
      exec .take { s with out := o } =
        .next { s with out := ⟨1#1 ++ s.word.zeroExtend 16, false, none⟩ })

/-- R134, in part: after ARM, TAKE returns nothing; and no sequence of operations with fewer than fourteen
events makes a word available again. -/
def Obligations.NoWordBeforeFourteenEvents : Prop :=
  ∀ (is : List Instr) (s t u : State), exec .arm s = .next t →
    is.countP isEventOp < 14 → runOps is t = .next u →
    u.avail = false ∧ exec .take u = .next { u with out := ⟨0#17, false, none⟩ }

/-! ### Field extraction -/

/-- R141: XCMD responds `{1, w[5:0]}` in every state, 0 to 63, whatever bits 15 to 6 are; the spec's example
is `XCMD 0x3410`. -/
def Obligations.XcmdGivesTheCommandBits : Prop :=
  (∀ (w : HalfWord) (s : State), ∃ v : HalfWord,
    exec (.xcmd w) s = .next { s with out := ⟨1#1 ++ v, false, none⟩ } ∧ v = w &&& 0x3F#16 ∧
    v.toNat = w.toNat % 64 ∧ v.toNat ≤ 63) ∧
  (∀ (w x : HalfWord) (s : State), w.extractLsb' 0 6 = x.extractLsb' 0 6 →
    exec (.xcmd w) s = exec (.xcmd x) s) ∧
  (∀ r : ReqWord, opField r = 0b101#3 → decode r = .xcmd (r.extractLsb' 0 16)) ∧
  encode (.xcmd 0x3410#16) = 0xA00003410#36 ∧
  (∀ s : State, exec (.xcmd 0x3410#16) s = .next { s with out := ⟨0x10010#17, false, none⟩ })

/-- XTOG responds `{1, w[11]}` in every state and only bit 11 matters: the formula of R142, which the spec
derives from the layout of R140. -/
def Obligations.XtogGivesTheToggleBit : Prop :=
  (∀ (w : HalfWord) (s : State), ∃ v : HalfWord,
    exec (.xtog w) s = .next { s with out := ⟨1#1 ++ v, false, none⟩ } ∧
    v.toNat = w.toNat / 2 ^ 11 % 2 ∧ (v = 1#16 ↔ w.getLsbD 11 = true)) ∧
  (∀ (w x : HalfWord) (s : State), w.getLsbD 11 = x.getLsbD 11 → exec (.xtog w) s = exec (.xtog x) s)

/-- XADDR responds `{1, w[10:6]}` in every state, 0 to 31, and only bits 10 to 6 matter: the formula of R143,
which the spec derives from the layout of R140. -/
def Obligations.XaddrGivesTheAddressBits : Prop :=
  (∀ (w : HalfWord) (s : State), ∃ v : HalfWord,
    exec (.xaddr w) s = .next { s with out := ⟨1#1 ++ v, false, none⟩ } ∧
    v.toNat = w.toNat / 2 ^ 6 % 32 ∧ v.toNat ≤ 31) ∧
  (∀ (w x : HalfWord) (s : State), w.extractLsb' 6 5 = x.extractLsb' 6 5 →
    exec (.xaddr w) s = exec (.xaddr x) s)

/-- R144: the helpers read no register and write none, leave `tick_clr = 0`, and give the same response for
the same `w` in every state. -/
def Obligations.HelpersArePure : Prop :=
  ∀ w : HalfWord, ∀ i ∈ [Instr.xcmd w, .xtog w, .xaddr w],
    ∃ r : RspWord, ∀ s : State, exec i s = .next { s with out := ⟨r, false, none⟩ }

/-- R146: doc00's worked example, the word `0b11_0_10000_010000`. -/
def Obligations.FieldExample : Prop :=
  ∀ s : State,
    exec (.xcmd 0b11_0_10000_010000#16) s = .next { s with out := ⟨1#1 ++ 16#16, false, none⟩ } ∧
    exec (.xaddr 0b11_0_10000_010000#16) s = .next { s with out := ⟨1#1 ++ 16#16, false, none⟩ } ∧
    exec (.xtog 0b11_0_10000_010000#16) s = .next { s with out := ⟨1#1 ++ 0#16, false, none⟩ } ∧
    (0b11_0_10000_010000#16 : HalfWord) = 0x3410#16 ∧ (0x3410#16 : HalfWord).toNat = 13328

/-! ### The edge classifier -/

/-- R81, R82, R83: `pulse = level`, and long if and only if the count is strictly between the bounds,
unsigned; at a bound, or outside, short. -/
def Obligations.ClassifierWindow : Prop :=
  ∀ (low high ticks : Ticks) (level : Bool),
    (low.toNat < ticks.toNat ∧ ticks.toNat < high.toNat →
      classify low high false ticks = .ls ∧ classify low high true ticks = .lp) ∧
    (¬(low.toNat < ticks.toNat ∧ ticks.toNat < high.toNat) →
      classify low high false ticks = .ss ∧ classify low high true ticks = .sp) ∧
    classify low high level low ∈ [Event.ss, .sp] ∧ classify low high level high ∈ [Event.ss, .sp] ∧
    (classify low high level ticks).code =
      BitVec.ofBool (decide (low.toNat < ticks.toNat ∧ ticks.toNat < high.toNat)) ++ BitVec.ofBool level

/-- R200: where no integer lies strictly between the bounds, no event is ever long. -/
def Obligations.EmptyWindowIsNeverLong : Prop :=
  ∀ (low high : Ticks), high.toNat ≤ low.toNat + 1 →
    ∀ (level : Bool) (ticks : Ticks), classify low high level ticks = if level then .sp else .ss

/-- C1, R80: EDGE is `classify`, on the bounds the machine carries, followed by the `on_event` of the
classified event. -/
def Obligations.EdgeIsTheClassifiedEvent : Prop :=
  ∀ (level : Bool) (ticks : Ticks) (s : State),
    exec (.edge level ticks) s = exec (classify s.lowBound s.highBound level ticks).instr s

/-! ### The decoder state machine. `eventIn i s` is the event that EDGE or EVENT `i` delivers in `s`. -/

/-- R86, R91: with `EVT_EN = 0` every EDGE and EVENT returns at once, no register changes and
`tick_clr = 0`. So it is in END and in the reset state before the first ARM. -/
def Obligations.MaskedEventChangesNothing : Prop :=
  (∀ (i : Instr) (s : State), isEventOp i = true → s.evtEn = false →
    exec i s = .next { s with out := ⟨0#17, false, none⟩ }) ∧
  (∀ s : State, s.Inv → s.st = .end_ → s.evtEn = false) ∧
  (∀ low high : Ticks, (State.resetWith low high).evtEn = false)

/-- R90, the special case: in BEGIN every delivered event of EDGE and EVENT, whatever its polarity and
duration, decrements the counter, sets that bit and enters MID1. -/
def Obligations.FirstEdgeIsTheLeadingSyncBit : Prop :=
  (∀ (i : Instr) (s : State) (c : Count), isEventOp i = true → s.evtEn = true → s.st = .begin_ →
    s.cnt.val = c.val + 1 →
    exec i s = .next { s with
      st := .table .mid1, cnt := c, acc := s.acc ||| (1#14 <<< c.val), out := ⟨0#17, true, none⟩ }) ∧
  (∀ (i : Instr) (s : State), isEventOp i = true → s.evtEn = true → s.st = .begin_ → s.Inv →
    exec i s = .next { s with
      st := .table .mid1, cnt := 13, acc := 0x2000#14, out := ⟨0#17, true, none⟩ })

/-- The model's choice (log entry 6): in the unreachable state BEGIN with `CNT = 0`, where the spec states no
result of `CNT - 1`, a delivered event still enters MID1, with a counter nothing constrains and the bit it
names. -/
def Obligations.DecrementAtZeroIsFree : Prop :=
  ∀ (i : Instr) (s : State), isEventOp i = true → s.evtEn = true → s.st = .begin_ → s.cnt = 0 →
    ∃ c : Count, exec i s = .next { s with
      st := .table .mid1, cnt := c, acc := s.acc ||| (1#14 <<< c.val), out := ⟨0#17, true, none⟩ }

/-- The short space EV.SS, or an EDGE classified so, in START1: a 1 is emitted (R102), and with 14 bits in
it is an overrun (R97). -/
def Obligations.ShortSpaceInStart1EmitsOne : Prop :=
  ∀ (i : Instr) (s : State), eventIn i s = some .ss → s.evtEn = true → s.st = .table .start1 →
    (∀ c : Count, s.cnt.val = c.val + 1 → exec i s = .next { s with
      st := .table .mid1, cnt := c, acc := s.acc ||| (1#14 <<< c.val), out := ⟨0#17, true, none⟩ }) ∧
    (s.cnt = 0 → exec i s = .next { s with
      st := .begin_, cnt := 14, acc := 0#14, word := 0#14, avail := false, evtEn := true,
      out := ⟨0#17, true, some .overrun⟩ })

/-- The short pulse EV.SP, or an EDGE classified so, in MID1: to START1 without a bit, or, with 14 bits in,
completion (R107, R98). -/
def Obligations.ShortPulseInMid1EndsTheCell : Prop :=
  ∀ (i : Instr) (s : State), eventIn i s = some .sp → s.evtEn = true → s.st = .table .mid1 →
    (s.cnt ≠ 0 → exec i s = .next { s with st := .table .start1, out := ⟨0#17, true, none⟩ }) ∧
    (s.cnt = 0 → exec i s = .next { s with
      st := .end_, word := s.acc, avail := true, evtEn := false, out := ⟨0#17, true, none⟩ })

/-- The long pulse EV.LP, or an EDGE classified so, in MID1: a 0 is emitted; with one bit missing it
completes, with none missing it is an overrun (R109, R97, R98). -/
def Obligations.LongPulseInMid1EmitsZero : Prop :=
  ∀ (i : Instr) (s : State), eventIn i s = some .lp → s.evtEn = true → s.st = .table .mid1 →
    (∀ c : Count, s.cnt.val = c.val + 1 → c ≠ 0 → exec i s = .next { s with
      st := .table .mid0, cnt := c, out := ⟨0#17, true, none⟩ }) ∧
    (s.cnt = 1 → exec i s = .next { s with
      st := .end_, cnt := 0, word := s.acc, avail := true, evtEn := false, out := ⟨0#17, true, none⟩ }) ∧
    (s.cnt = 0 → exec i s = .next { s with
      st := .begin_, cnt := 14, acc := 0#14, word := 0#14, avail := false, evtEn := true,
      out := ⟨0#17, true, some .overrun⟩ })

/-- The short space EV.SS, or an EDGE classified so, in MID0: to START0 without a bit (R110). -/
def Obligations.ShortSpaceInMid0EndsTheCell : Prop :=
  ∀ (i : Instr) (s : State), eventIn i s = some .ss → s.evtEn = true → s.st = .table .mid0 →
    exec i s = .next { s with st := .table .start0, out := ⟨0#17, true, none⟩ }

/-- The long space EV.LS, or an EDGE classified so, in MID0: a 1 is emitted (R112), and with 14 bits in it is
an overrun (R97). -/
def Obligations.LongSpaceInMid0EmitsOne : Prop :=
  ∀ (i : Instr) (s : State), eventIn i s = some .ls → s.evtEn = true → s.st = .table .mid0 →
    (∀ c : Count, s.cnt.val = c.val + 1 → exec i s = .next { s with
      st := .table .mid1, cnt := c, acc := s.acc ||| (1#14 <<< c.val), out := ⟨0#17, true, none⟩ }) ∧
    (s.cnt = 0 → exec i s = .next { s with
      st := .begin_, cnt := 14, acc := 0#14, word := 0#14, avail := false, evtEn := true,
      out := ⟨0#17, true, some .overrun⟩ })

/-- The short pulse EV.SP, or an EDGE classified so, in START0: a 0 is emitted; with one bit missing it
completes (R115, R98), with none missing it is an overrun (R97). -/
def Obligations.ShortPulseInStart0EmitsZero : Prop :=
  ∀ (i : Instr) (s : State), eventIn i s = some .sp → s.evtEn = true → s.st = .table .start0 →
    (∀ c : Count, s.cnt.val = c.val + 1 → c ≠ 0 → exec i s = .next { s with
      st := .table .mid0, cnt := c, out := ⟨0#17, true, none⟩ }) ∧
    (s.cnt = 1 → exec i s = .next { s with
      st := .end_, cnt := 0, word := s.acc, avail := true, evtEn := false, out := ⟨0#17, true, none⟩ }) ∧
    (s.cnt = 0 → exec i s = .next { s with
      st := .begin_, cnt := 14, acc := 0#14, word := 0#14, avail := false, evtEn := true,
      out := ⟨0#17, true, some .overrun⟩ })

/-- R99: the fourteenth bit being a 1, the decoder rests in MID1 with `CNT = 0` and the next event decides: SP
completes, LP is an overrun, SS and LS are undefined. Every other defined transition enters its state. -/
def Obligations.FourteenthBitOneWaits : Prop :=
  (∀ (i : Instr) (s t : State) (a : TableState) (ev : Event), eventIn i s = some ev → s.evtEn = true →
    s.st = .table a → exec i s = .next t → t.out.err = none → t.st ≠ .end_ →
    t.st = .table (transition a ev)) ∧
  (∀ (i : Instr) (s t : State), s.evtEn = true → s.cnt = 1 →
    (s.st = .table .start1 ∧ eventIn i s = some .ss ∨ s.st = .table .mid0 ∧ eventIn i s = some .ls) →
    exec i s = .next t → t.st = .table .mid1 ∧ t.cnt = 0 ∧ t.avail = s.avail) ∧
  (∀ (i : Instr) (s : State) (ev : Event), s.evtEn = true → s.cnt = 0 → s.st = .table .mid1 →
    eventIn i s = some ev → ∃ t : State, exec i s = .next t ∧
      (t.st = .end_ ↔ ev = .sp) ∧ (t.out.err = some .overrun ↔ ev = .lp) ∧
      (t.out.err = some .self ↔ ev = .ss ∨ ev = .ls))

/-! ### Protocol errors -/

/-- R151: ERR_SELF, trace code 1, is raised by EDGE and EVENT exactly on the ten undefined pairs of a table
state and an event, delivered; it records nothing else. -/
def Obligations.UndefinedTransitionRearms : Prop :=
  ProtocolError.self.code = 1 ∧
  (∀ (t : TableState) (ev : Event), transition t ev = t ↔
    (t, ev) ∈ [(TableState.start1, Event.sp), (.start1, .ls), (.start1, .lp), (.mid1, .ss), (.mid1, .ls),
      (.mid0, .sp), (.mid0, .lp), (.start0, .ss), (.start0, .ls), (.start0, .lp)]) ∧
  (∀ (i : Instr) (s : State) (t : TableState) (ev : Event), eventIn i s = some ev → s.evtEn = true →
    s.st = .table t → transition t ev = t →
    exec i s = .next { s with
      st := .begin_, cnt := 14, acc := 0#14, word := 0#14, avail := false, evtEn := true,
      out := ⟨0#17, true, some .self⟩ }) ∧
  (∀ (i : Instr) (s u : State), exec i s = .next u → u.out.err = some .self →
    ∃ (t : TableState) (ev : Event), s.evtEn = true ∧ s.st = .table t ∧ eventIn i s = some ev ∧
      transition t ev = t)

/-- R152 with the order of R160: ERR_OVERRUN, trace code 2, is raised on a defined transition to MID0 or MID1
with `CNT = 0`; in a reachable state only by a long pulse in MID1. -/
def Obligations.OverrunRearms : Prop :=
  ProtocolError.overrun.code = 2 ∧
  (∀ (i : Instr) (s : State) (t : TableState) (ev : Event), eventIn i s = some ev → s.evtEn = true →
    s.st = .table t → s.cnt = 0 → transition t ev ≠ t →
    (transition t ev = .mid0 ∨ transition t ev = .mid1) →
    exec i s = .next { s with
      st := .begin_, cnt := 14, acc := 0#14, word := 0#14, avail := false, evtEn := true,
      out := ⟨0#17, true, some .overrun⟩ }) ∧
  (∀ (i : Instr) (s u : State), s.Inv → exec i s = .next u → u.out.err = some .overrun →
    s.evtEn = true ∧ s.st = .table .mid1 ∧ s.cnt = 0 ∧ eventIn i s = some .lp)

/-- R153: a protocol error does what ARM does and nothing else, with `tick_clr = 1`. -/
def Obligations.ProtocolErrorIsAnArm : Prop :=
  ∀ (i : Instr) (s t : State) (k : ProtocolError), exec i s = .next t → t.out.err = some k →
    t = { s with
      st := .begin_, cnt := 14, acc := 0#14, word := 0#14, avail := false, evtEn := true,
      out := ⟨0#17, true, some k⟩ } ∧
    ∃ u : State, exec .arm s = .next u ∧ t = { u with out := ⟨0#17, true, some k⟩ }

/-- R161, R162, R187: the failing event is consumed; the next delivered event, whatever it is, raises no error
and is taken as the first sync bit. -/
def Obligations.EventAfterErrorIsTheFirstSyncBit : Prop :=
  ∀ (i j : Instr) (s t : State) (k : ProtocolError), exec i s = .next t → t.out.err = some k →
    isEventOp j = true →
    exec j t = .next { t with
      st := .table .mid1, cnt := 13, acc := 0x2000#14, out := ⟨0#17, true, none⟩ }

/-- R101, U3: an event delivered in END has no behaviour in the spec; the model refuses it by name (the
model's choice, log entry 5), there and nowhere else. -/
def Obligations.EventInEndIsRefused : Prop :=
  (∀ (i : Instr) (s : State), isEventOp i = true → s.st = .end_ → s.evtEn = true →
    exec i s = .refused .eventInEnd) ∧
  (∀ (i : Instr) (s : State), s.Accepts → ∃ t : State, exec i s = .next t) ∧
  (∀ s : State, s.Inv → s.Accepts)

/-! ### What operations do not do -/

/-- R84, R100: `tick_clr = 1` in exactly the EDGE and EVENT operations that are delivered, on every path. -/
def Obligations.TickClearOnDeliveredEvents : Prop :=
  ∀ (i : Instr) (s t : State), exec i s = .next t →
    (t.out.tickClr = true ↔ isEventOp i = true ∧ s.evtEn = true)

/-- R66: NOP, EDGE, EVENT and ARM respond 0, TAKE responds an option of the latch word, the helpers respond
with `some = 1`. -/
def Obligations.ResponseWords : Prop :=
  ∀ (i : Instr) (s t : State), exec i s = .next t →
    (isEventOp i = true ∨ i = .nop ∨ i = .arm → t.out.rsp = 0#17) ∧
    (i = .take → t.out.rsp.getLsbD 16 = s.avail ∧
      t.out.rsp.truncate 16 = if s.avail then s.word.zeroExtend 16 else 0#16) ∧
    (∀ w : HalfWord, i = .xcmd w → t.out.rsp = 1#1 ++ (w.extractLsb' 0 6).zeroExtend 16) ∧
    (∀ w : HalfWord, i = .xtog w → t.out.rsp = 1#1 ++ (w.extractLsb' 11 1).zeroExtend 16) ∧
    (∀ w : HalfWord, i = .xaddr w → t.out.rsp = 1#1 ++ (w.extractLsb' 6 5).zeroExtend 16)

/-- R46: reads have no side effect. NOP, TAKE, XCMD, XTOG and XADDR change no register, so the only operations
that change state are EDGE, EVENT and ARM. -/
def Obligations.ReadsHaveNoSideEffect : Prop :=
  ∀ (i : Instr) (s : State), isEventOp i = false → i ≠ .arm →
    ∃ r : RspWord, exec i s = .next { s with out := ⟨r, false, none⟩ }

/-- R28: no step writes LOW_BOUND or HIGH_BOUND, a hardware reset and an ARM among them, and no operation but
EDGE reads them: with another configuration it does the same. -/
def Obligations.ConfigurationIsConstant : Prop :=
  (∀ s t : State, step s = .next t → t.lowBound = s.lowBound ∧ t.highBound = s.highBound) ∧
  (∀ (i : Instr) (s t : State), exec i s = .next t → t.lowBound = s.lowBound ∧ t.highBound = s.highBound) ∧
  (∀ (i : Instr) (s t : State) (low high : Ticks), (∀ l k, i ≠ .edge l k) → exec i s = .next t →
    exec i { s with lowBound := low, highBound := high } =
      .next { t with lowBound := low, highBound := high })

/-- R22, R23, R123, R125: between two armings an operation changes the counter by 0 or by -1, and sets at most
the accumulator bit the new counter names, clearing none. -/
def Obligations.CounterFallsAndBitsStay : Prop :=
  ∀ (i : Instr) (s t : State), s.Inv → exec i s = .next t → i ≠ .arm → t.out.err = none →
    (t.cnt = s.cnt ∧ t.acc = s.acc ∨
      t.cnt.val + 1 = s.cnt.val ∧ (t.acc = s.acc ∨ t.acc = s.acc ||| (1#14 <<< t.cnt.val))) ∧
    s.acc &&& t.acc = s.acc

/-- R26, R98, R45: AVAIL is set by the completion step of EDGE or EVENT only, which writes WORD, STATE and
EVT_EN with it, and it is cleared by ARM or a protocol error only; WORD is written by no other operation. -/
def Obligations.LatchWrittenByCompletionOrArming : Prop :=
  ∀ (i : Instr) (s t : State), exec i s = .next t →
    (s.avail = false → t.avail = true →
      isEventOp i = true ∧ s.evtEn = true ∧ t.st = .end_ ∧ t.cnt = 0 ∧ t.word = t.acc ∧ t.evtEn = false) ∧
    (s.avail = true → t.avail = false → i = .arm ∨ t.out.err ≠ none) ∧
    (t.word ≠ s.word → i = .arm ∨ t.out.err ≠ none ∨ t.avail = true ∧ t.st = .end_ ∧ s.evtEn = true)

/-- The model's own fields (log entries 1, 2): no operation reads or writes what the environment presents, and
none reads what the last cycle drove. -/
def Obligations.OperationsIgnoreTheModelsFields : Prop :=
  ∀ (i : Instr) (s t : State), exec i s = .next t →
    t.env = s.env ∧
    ∀ (e : List Cycle) (o : CycleOut), exec i { s with env := e, out := o } = .next { t with env := e }

/-! ### Sequences of operations -/

/-- R49, D1: presented one per cycle, a sequence of operations leaves the machine as applying them one after
another in that order does. -/
def Obligations.SequenceIsFoldOfOperations : Prop :=
  ∀ (is : List Instr) (rest : List Cycle) (s : State),
    Host.Core.run Sys2Proof.core is.length
        { s with env := is.map (fun i => Cycle.request (encode i)) ++ rest } =
      runOps is { s with env := rest }

/-- R77, E2: from the armed decoder, the edges of FRAME `w, first, h` latch exactly `w`, for every `w` with
`w[13] = 1`, when the half cell is at most LOW_BOUND and the full cell is inside the window. -/
def Obligations.FrameDecodesToItsWord : Prop :=
  ∀ (w : FrameWord) (first : Ticks) (h : Nat) (s : State), w.getLsbD 13 = true →
    s.st = .begin_ → s.cnt = 14 → s.acc = 0#14 → s.evtEn = true →
    h ≤ s.lowBound.toNat → s.lowBound.toNat < 2 * h → 2 * h < s.highBound.toNat →
    runOps (frameOps w first h) s = .next { s with
      st := .end_, cnt := 0, acc := w, word := w, avail := true, evtEn := false,
      out := ⟨0#17, true, none⟩ }

/-- R77: a frame has between 16 and 28 edges, always an even number, the first with `level = 0` and the last
with `level = 1`. -/
def Obligations.FrameEdgesAreEven : Prop :=
  ∀ (w : FrameWord) (first : Ticks) (h : Nat), w.getLsbD 13 = true →
    16 ≤ (frameOps w first h).length ∧ (frameOps w first h).length ≤ 28 ∧
    (frameOps w first h).length % 2 = 0 ∧
    (frameOps w first h).head? = some (.edge false first) ∧
    ∃ k : Ticks, (frameOps w first h).getLast? = some (.edge true k)

/-- R126: any 14-bit value with bit 13 set is latched by some sequence of events. -/
def Obligations.EveryWordCanBeLatched : Prop :=
  ∀ w : FrameWord, w.getLsbD 13 = true → ∃ evs : List Event, ∀ s : State,
    ∃ t : State, runOps (.arm :: evs.map Event.instr) s = .next t ∧ t.avail = true ∧ t.word = w

/-- R192: entered from BEGIN on a rising edge, the decoder is locked out: edges that alternate rising and
falling leave it armed in BEGIN for ever, whatever their durations, and latch nothing. -/
def Obligations.AlternatingEdgesLockOut : Prop :=
  ∀ (durations : List (Ticks × Ticks)) (s : State), s.Inv → s.st = .begin_ → s.evtEn = true →
    ∃ o : CycleOut,
      runOps (durations.flatMap fun d => [.edge true d.1, .edge false d.2]) s = .next { s with out := o }
end

