-- ==== Sys2Proof/Laws/Decode.lean ====
section
/-!
SUPPORT. The fields of an encoded request word, one lemma per field and format, and the bits of each
format: proofs cite these and do not unfold the encoder.
-/

namespace Sys2Proof

/-- The bits of a format G word: `ticks`, then `level`, then the operation code (R63). -/
theorem getLsbD_encodeG (op : BitVec 3) (level : Bool) (ticks : Ticks) (i : Nat) :
    (encodeG op level ticks).getLsbD i =
      if i < 32 then ticks.getLsbD i
      else if i - 32 < 1 then (BitVec.ofBool level).getLsbD (i - 32) else op.getLsbD (i - 32 - 1) := by
  unfold encodeG
  rw [BitVec.getLsbD_append, BitVec.getLsbD_append]

/-- The bits of a format W word: `w`, then zeros, then the operation code (R65). -/
theorem getLsbD_encodeW (op : BitVec 3) (w : HalfWord) (i : Nat) :
    (encodeW op w).getLsbD i =
      if i < 16 then w.getLsbD i
      else if i - 16 < 17 then (0#17).getLsbD (i - 16) else op.getLsbD (i - 16 - 17) := by
  unfold encodeW
  rw [BitVec.getLsbD_append, BitVec.getLsbD_append]

/-- The bits of a format V word: the event code, then zeros, then the operation code (R64). -/
theorem getLsbD_encodeV (op : BitVec 3) (ev : Event) (i : Nat) :
    (encodeV op ev).getLsbD i =
      if i < 2 then ev.code.getLsbD i
      else if i - 2 < 31 then (0#31).getLsbD (i - 2) else op.getLsbD (i - 2 - 31) := by
  unfold encodeV
  rw [BitVec.getLsbD_append, BitVec.getLsbD_append]

/-- The bits of a format Z word: zeros, then the operation code (R62). -/
theorem getLsbD_encodeZ (op : BitVec 3) (i : Nat) :
    (encodeZ op).getLsbD i = if i < 33 then (0#33).getLsbD i else op.getLsbD (i - 33) := by
  unfold encodeZ
  rw [BitVec.getLsbD_append]

theorem getLsbD_opField (req : ReqWord) (i : Nat) :
    (opField req).getLsbD i = (decide (i < 3) && req.getLsbD (33 + i)) := by
  unfold opField
  rw [BitVec.getLsbD_extractLsb']

@[simp] theorem opField_encodeZ (op : BitVec 3) : opField (encodeZ op) = op := by
  apply BitVec.eq_of_getLsbD_eq
  intro i hi
  rw [getLsbD_opField, getLsbD_encodeZ]
  interval_cases i <;> rfl

@[simp] theorem opField_encodeG (op : BitVec 3) (level : Bool) (ticks : Ticks) :
    opField (encodeG op level ticks) = op := by
  apply BitVec.eq_of_getLsbD_eq
  intro i hi
  rw [getLsbD_opField, getLsbD_encodeG]
  interval_cases i <;> rfl

@[simp] theorem opField_encodeV (op : BitVec 3) (ev : Event) : opField (encodeV op ev) = op := by
  apply BitVec.eq_of_getLsbD_eq
  intro i hi
  rw [getLsbD_opField, getLsbD_encodeV]
  interval_cases i <;> rfl

@[simp] theorem opField_encodeW (op : BitVec 3) (w : HalfWord) : opField (encodeW op w) = op := by
  apply BitVec.eq_of_getLsbD_eq
  intro i hi
  rw [getLsbD_opField, getLsbD_encodeW]
  interval_cases i <;> rfl

@[simp] theorem levelField_encodeG (op : BitVec 3) (level : Bool) (ticks : Ticks) :
    levelField (encodeG op level ticks) = level := by
  unfold levelField
  rw [getLsbD_encodeG]
  cases level <;> rfl

@[simp] theorem ticksField_encodeG (op : BitVec 3) (level : Bool) (ticks : Ticks) :
    ticksField (encodeG op level ticks) = ticks := by
  apply BitVec.eq_of_getLsbD_eq
  intro i hi
  unfold ticksField
  rw [BitVec.getLsbD_extractLsb', getLsbD_encodeG]
  simp [hi]

@[simp] theorem evField_encodeV (op : BitVec 3) (ev : Event) : evField (encodeV op ev) = ev.code := by
  apply BitVec.eq_of_getLsbD_eq
  intro i hi
  unfold evField
  rw [BitVec.getLsbD_extractLsb', getLsbD_encodeV]
  simp [hi]

@[simp] theorem wField_encodeW (op : BitVec 3) (w : HalfWord) : wField (encodeW op w) = w := by
  apply BitVec.eq_of_getLsbD_eq
  intro i hi
  unfold wField
  rw [BitVec.getLsbD_extractLsb', getLsbD_encodeW]
  simp [hi]

@[simp] theorem ofCode_code (ev : Event) : Event.ofCode ev.code = ev := by
  cases ev <;> rfl

end Sys2Proof
end

