-- ==== Sys2Proof/Laws/State.lean ====
section
/-!
SUPPORT. Every field of the state after every named update, one lemma each: later proofs do not unfold a
record update. A field that an update does not write is as before (the frame of the update).
-/

namespace Sys2Proof.Machine

/-! ### respond -/

@[simp] theorem respond_st (rsp : RspWord) (s : State) : (respond rsp s).st = s.st := rfl
@[simp] theorem respond_cnt (rsp : RspWord) (s : State) : (respond rsp s).cnt = s.cnt := rfl
@[simp] theorem respond_acc (rsp : RspWord) (s : State) : (respond rsp s).acc = s.acc := rfl
@[simp] theorem respond_word (rsp : RspWord) (s : State) : (respond rsp s).word = s.word := rfl
@[simp] theorem respond_avail (rsp : RspWord) (s : State) : (respond rsp s).avail = s.avail := rfl
@[simp] theorem respond_evtEn (rsp : RspWord) (s : State) : (respond rsp s).evtEn = s.evtEn := rfl
@[simp] theorem respond_lowBound (rsp : RspWord) (s : State) : (respond rsp s).lowBound = s.lowBound := rfl
@[simp] theorem respond_highBound (rsp : RspWord) (s : State) : (respond rsp s).highBound = s.highBound := rfl
@[simp] theorem respond_env (rsp : RspWord) (s : State) : (respond rsp s).env = s.env := rfl
@[simp] theorem respond_out (rsp : RspWord) (s : State) : (respond rsp s).out = ⟨rsp, false, none⟩ := rfl

/-! ### delivered -/

@[simp] theorem delivered_st (s : State) : (delivered s).st = s.st := rfl
@[simp] theorem delivered_cnt (s : State) : (delivered s).cnt = s.cnt := rfl
@[simp] theorem delivered_acc (s : State) : (delivered s).acc = s.acc := rfl
@[simp] theorem delivered_word (s : State) : (delivered s).word = s.word := rfl
@[simp] theorem delivered_avail (s : State) : (delivered s).avail = s.avail := rfl
@[simp] theorem delivered_evtEn (s : State) : (delivered s).evtEn = s.evtEn := rfl
@[simp] theorem delivered_lowBound (s : State) : (delivered s).lowBound = s.lowBound := rfl
@[simp] theorem delivered_highBound (s : State) : (delivered s).highBound = s.highBound := rfl
@[simp] theorem delivered_env (s : State) : (delivered s).env = s.env := rfl
@[simp] theorem delivered_out (s : State) : (delivered s).out = ⟨noRsp, true, none⟩ := rfl

/-! ### doArm -/

@[simp] theorem doArm_st (s : State) : (doArm s).st = .begin_ := rfl
@[simp] theorem doArm_cnt (s : State) : (doArm s).cnt = 14 := rfl
@[simp] theorem doArm_acc (s : State) : (doArm s).acc = 0#14 := rfl
@[simp] theorem doArm_word (s : State) : (doArm s).word = 0#14 := rfl
@[simp] theorem doArm_avail (s : State) : (doArm s).avail = false := rfl
@[simp] theorem doArm_evtEn (s : State) : (doArm s).evtEn = true := rfl
@[simp] theorem doArm_lowBound (s : State) : (doArm s).lowBound = s.lowBound := rfl
@[simp] theorem doArm_highBound (s : State) : (doArm s).highBound = s.highBound := rfl
@[simp] theorem doArm_env (s : State) : (doArm s).env = s.env := rfl
@[simp] theorem doArm_out (s : State) : (doArm s).out = s.out := rfl

/-! ### raiseError -/

@[simp] theorem raiseError_st (kind : ProtocolError) (s : State) : (raiseError kind s).st = .begin_ := rfl
@[simp] theorem raiseError_cnt (kind : ProtocolError) (s : State) : (raiseError kind s).cnt = 14 := rfl
@[simp] theorem raiseError_acc (kind : ProtocolError) (s : State) : (raiseError kind s).acc = 0#14 := rfl
@[simp] theorem raiseError_word (kind : ProtocolError) (s : State) : (raiseError kind s).word = 0#14 := rfl
@[simp] theorem raiseError_avail (kind : ProtocolError) (s : State) : (raiseError kind s).avail = false := rfl
@[simp] theorem raiseError_evtEn (kind : ProtocolError) (s : State) : (raiseError kind s).evtEn = true := rfl
@[simp] theorem raiseError_lowBound (kind : ProtocolError) (s : State) : (raiseError kind s).lowBound = s.lowBound := rfl
@[simp] theorem raiseError_highBound (kind : ProtocolError) (s : State) : (raiseError kind s).highBound = s.highBound := rfl
@[simp] theorem raiseError_env (kind : ProtocolError) (s : State) : (raiseError kind s).env = s.env := rfl
@[simp] theorem raiseError_out (kind : ProtocolError) (s : State) : (raiseError kind s).out = ⟨noRsp, true, some kind⟩ := rfl

/-! ### firstSync -/

@[simp] theorem firstSync_st (s : State) : (firstSync s).st = .table .mid1 := rfl
@[simp] theorem firstSync_cnt (s : State) : (firstSync s).cnt = decrement s.cnt s.acc := rfl
@[simp] theorem firstSync_acc (s : State) : (firstSync s).acc = setBit s.acc (decrement s.cnt s.acc) := rfl
@[simp] theorem firstSync_word (s : State) : (firstSync s).word = s.word := rfl
@[simp] theorem firstSync_avail (s : State) : (firstSync s).avail = s.avail := rfl
@[simp] theorem firstSync_evtEn (s : State) : (firstSync s).evtEn = s.evtEn := rfl
@[simp] theorem firstSync_lowBound (s : State) : (firstSync s).lowBound = s.lowBound := rfl
@[simp] theorem firstSync_highBound (s : State) : (firstSync s).highBound = s.highBound := rfl
@[simp] theorem firstSync_env (s : State) : (firstSync s).env = s.env := rfl
@[simp] theorem firstSync_out (s : State) : (firstSync s).out = ⟨noRsp, true, none⟩ := rfl

/-! ### complete -/

@[simp] theorem complete_st (c : Count) (a : FrameWord) (s : State) : (complete c a s).st = .end_ := rfl
@[simp] theorem complete_cnt (c : Count) (a : FrameWord) (s : State) : (complete c a s).cnt = c := rfl
@[simp] theorem complete_acc (c : Count) (a : FrameWord) (s : State) : (complete c a s).acc = a := rfl
@[simp] theorem complete_word (c : Count) (a : FrameWord) (s : State) : (complete c a s).word = a := rfl
@[simp] theorem complete_avail (c : Count) (a : FrameWord) (s : State) : (complete c a s).avail = true := rfl
@[simp] theorem complete_evtEn (c : Count) (a : FrameWord) (s : State) : (complete c a s).evtEn = false := rfl
@[simp] theorem complete_lowBound (c : Count) (a : FrameWord) (s : State) : (complete c a s).lowBound = s.lowBound := rfl
@[simp] theorem complete_highBound (c : Count) (a : FrameWord) (s : State) : (complete c a s).highBound = s.highBound := rfl
@[simp] theorem complete_env (c : Count) (a : FrameWord) (s : State) : (complete c a s).env = s.env := rfl
@[simp] theorem complete_out (c : Count) (a : FrameWord) (s : State) : (complete c a s).out = ⟨noRsp, true, none⟩ := rfl

/-! ### advance -/

@[simp] theorem advance_st (ns : TableState) (c : Count) (a : FrameWord) (s : State) : (advance ns c a s).st = .table ns := rfl
@[simp] theorem advance_cnt (ns : TableState) (c : Count) (a : FrameWord) (s : State) : (advance ns c a s).cnt = c := rfl
@[simp] theorem advance_acc (ns : TableState) (c : Count) (a : FrameWord) (s : State) : (advance ns c a s).acc = a := rfl
@[simp] theorem advance_word (ns : TableState) (c : Count) (a : FrameWord) (s : State) : (advance ns c a s).word = s.word := rfl
@[simp] theorem advance_avail (ns : TableState) (c : Count) (a : FrameWord) (s : State) : (advance ns c a s).avail = s.avail := rfl
@[simp] theorem advance_evtEn (ns : TableState) (c : Count) (a : FrameWord) (s : State) : (advance ns c a s).evtEn = s.evtEn := rfl
@[simp] theorem advance_lowBound (ns : TableState) (c : Count) (a : FrameWord) (s : State) : (advance ns c a s).lowBound = s.lowBound := rfl
@[simp] theorem advance_highBound (ns : TableState) (c : Count) (a : FrameWord) (s : State) : (advance ns c a s).highBound = s.highBound := rfl
@[simp] theorem advance_env (ns : TableState) (c : Count) (a : FrameWord) (s : State) : (advance ns c a s).env = s.env := rfl
@[simp] theorem advance_out (ns : TableState) (c : Count) (a : FrameWord) (s : State) : (advance ns c a s).out = ⟨noRsp, true, none⟩ := rfl

/-! ### hardReset -/

@[simp] theorem hardReset_st (s : State) : (hardReset s).st = .begin_ := rfl
@[simp] theorem hardReset_cnt (s : State) : (hardReset s).cnt = 14 := rfl
@[simp] theorem hardReset_acc (s : State) : (hardReset s).acc = 0#14 := rfl
@[simp] theorem hardReset_word (s : State) : (hardReset s).word = 0#14 := rfl
@[simp] theorem hardReset_avail (s : State) : (hardReset s).avail = false := rfl
@[simp] theorem hardReset_evtEn (s : State) : (hardReset s).evtEn = false := rfl
@[simp] theorem hardReset_lowBound (s : State) : (hardReset s).lowBound = s.lowBound := rfl
@[simp] theorem hardReset_highBound (s : State) : (hardReset s).highBound = s.highBound := rfl
@[simp] theorem hardReset_env (s : State) : (hardReset s).env = s.env := rfl
@[simp] theorem hardReset_out (s : State) : (hardReset s).out = .quiet := rfl

/-! ### moveOn -/

@[simp] theorem moveOn_st (s : State) : (moveOn s).st = s.st := rfl
@[simp] theorem moveOn_cnt (s : State) : (moveOn s).cnt = s.cnt := rfl
@[simp] theorem moveOn_acc (s : State) : (moveOn s).acc = s.acc := rfl
@[simp] theorem moveOn_word (s : State) : (moveOn s).word = s.word := rfl
@[simp] theorem moveOn_avail (s : State) : (moveOn s).avail = s.avail := rfl
@[simp] theorem moveOn_evtEn (s : State) : (moveOn s).evtEn = s.evtEn := rfl
@[simp] theorem moveOn_lowBound (s : State) : (moveOn s).lowBound = s.lowBound := rfl
@[simp] theorem moveOn_highBound (s : State) : (moveOn s).highBound = s.highBound := rfl
@[simp] theorem moveOn_env (s : State) : (moveOn s).env = s.env.tail := rfl
@[simp] theorem moveOn_out (s : State) : (moveOn s).out = s.out := rfl

/-! ### presentWord -/

@[simp] theorem presentWord_st (s : State) (n w : Nat) : (presentWord s n w).st = s.st := rfl
@[simp] theorem presentWord_cnt (s : State) (n w : Nat) : (presentWord s n w).cnt = s.cnt := rfl
@[simp] theorem presentWord_acc (s : State) (n w : Nat) : (presentWord s n w).acc = s.acc := rfl
@[simp] theorem presentWord_word (s : State) (n w : Nat) : (presentWord s n w).word = s.word := rfl
@[simp] theorem presentWord_avail (s : State) (n w : Nat) : (presentWord s n w).avail = s.avail := rfl
@[simp] theorem presentWord_evtEn (s : State) (n w : Nat) : (presentWord s n w).evtEn = s.evtEn := rfl
@[simp] theorem presentWord_lowBound (s : State) (n w : Nat) : (presentWord s n w).lowBound = s.lowBound := rfl
@[simp] theorem presentWord_highBound (s : State) (n w : Nat) : (presentWord s n w).highBound = s.highBound := rfl
@[simp] theorem presentWord_env (s : State) (n w : Nat) : (presentWord s n w).env = Cycle.request (BitVec.ofNat 36 (w % 2 ^ n)) :: s.env.tail := rfl
@[simp] theorem presentWord_out (s : State) (n w : Nat) : (presentWord s n w).out = s.out := rfl

@[simp] theorem resetWith_st (low high : Ticks) : (State.resetWith low high).st = .begin_ := rfl
@[simp] theorem resetWith_cnt (low high : Ticks) : (State.resetWith low high).cnt = 14 := rfl
@[simp] theorem resetWith_acc (low high : Ticks) : (State.resetWith low high).acc = 0#14 := rfl
@[simp] theorem resetWith_word (low high : Ticks) : (State.resetWith low high).word = 0#14 := rfl
@[simp] theorem resetWith_avail (low high : Ticks) : (State.resetWith low high).avail = false := rfl
@[simp] theorem resetWith_evtEn (low high : Ticks) : (State.resetWith low high).evtEn = false := rfl
@[simp] theorem resetWith_lowBound (low high : Ticks) : (State.resetWith low high).lowBound = low := rfl
@[simp] theorem resetWith_highBound (low high : Ticks) : (State.resetWith low high).highBound = high := rfl
@[simp] theorem resetWith_env (low high : Ticks) : (State.resetWith low high).env = [] := rfl
@[simp] theorem resetWith_out (low high : Ticks) : (State.resetWith low high).out = .quiet := rfl

end Sys2Proof.Machine
end

