-- ==== Sys2Proof/Laws/Ops.lean ====
section
/-!
SUPPORT. What each shared operation can do, said once: proofs cite these lemmas and do not unfold the
operations.
-/

namespace Sys2Proof.Machine

/-! ### The counter and the accumulator -/

theorem decrement_val {cnt : Count} (acc : FrameWord) (h : cnt.val ≠ 0) :
    (decrement cnt acc).val = cnt.val - 1 := by
  simp [decrement, h]

theorem decrement_zero {cnt : Count} (acc : FrameWord) (h : cnt.val = 0) :
    decrement cnt acc = Config.cntBelowZero acc := by
  simp [decrement, h]

theorem setBit_getLsbD (acc : FrameWord) (k : Count) (j : Nat) :
    (setBit acc k).getLsbD j = (acc.getLsbD j || (decide (j < 14) && decide (j = k.val))) := by
  simp only [setBit, BitVec.getLsbD_or, BitVec.getLsbD_shiftLeft, BitVec.getLsbD_one]
  rcases lt_trichotomy j k.val with h | h | h
  · simp [h, Nat.ne_of_lt h]
  · simp [h]
  · simp [Nat.not_lt_of_gt h, Nat.ne_of_gt h, Nat.sub_eq_zero_iff_le, Nat.not_le_of_gt h]

theorem emits_iff (ns : TableState) : emits ns = true ↔ ns = .mid0 ∨ ns = .mid1 := by
  cases ns <;> simp [emits]

theorem accepting_iff (ns : TableState) : accepting ns = true ↔ ns = .start1 ∨ ns = .mid0 := by
  cases ns <;> simp [accepting]

theorem completes_iff (ns : TableState) (c : Count) :
    completes ns c = true ↔ c = 0 ∧ (ns = .start1 ∨ ns = .mid0) := by
  simp [completes, accepting_iff]

theorem emittedCnt_of_emits {ns : TableState} (cnt : Count) (acc : FrameWord) (h : emits ns = true) :
    emittedCnt ns cnt acc = decrement cnt acc := by
  simp [emittedCnt, h]

theorem emittedCnt_of_not_emits {ns : TableState} (cnt : Count) (acc : FrameWord) (h : emits ns = false) :
    emittedCnt ns cnt acc = cnt := by
  simp [emittedCnt, h]

theorem emittedAcc_mid1 (cnt : Count) (acc : FrameWord) :
    emittedAcc .mid1 cnt acc = setBit acc (decrement cnt acc) := by
  simp [emittedAcc, emittedCnt, emits]

theorem emittedAcc_of_ne {ns : TableState} (cnt : Count) (acc : FrameWord) (h : ns ≠ .mid1) :
    emittedAcc ns cnt acc = acc := by
  simp [emittedAcc, h]

/-! ### The classifier -/

theorem isLong_iff (low high ticks : Ticks) :
    isLong low high ticks = true ↔ low.toNat < ticks.toNat ∧ ticks.toNat < high.toNat := by
  simp [isLong]

theorem classify_of_long {low high ticks : Ticks} (level : Bool) (h : isLong low high ticks = true) :
    classify low high level ticks = if level then .lp else .ls := by
  cases level <;> simp [classify, eventOf, h]

theorem classify_of_short {low high ticks : Ticks} (level : Bool) (h : isLong low high ticks = false) :
    classify low high level ticks = if level then .sp else .ss := by
  cases level <;> simp [classify, eventOf, h]

/-! ### `on_event` -/

/-- The general case ends in one of four ways, in the order of 60_exceptions.md R160. -/
theorem tableEvent_cases (t : TableState) (ev : Event) (s : State) :
    (transition t ev = t ∧ tableEvent t ev s = raiseError .self s) ∨
    (transition t ev ≠ t ∧ emits (transition t ev) = true ∧ s.cnt = 0 ∧
      tableEvent t ev s = raiseError .overrun s) ∨
    (transition t ev ≠ t ∧ ¬(emits (transition t ev) = true ∧ s.cnt = 0) ∧
      completes (transition t ev) (emittedCnt (transition t ev) s.cnt s.acc) = true ∧
      tableEvent t ev s =
        complete (emittedCnt (transition t ev) s.cnt s.acc) (emittedAcc (transition t ev) s.cnt s.acc) s) ∨
    (transition t ev ≠ t ∧ ¬(emits (transition t ev) = true ∧ s.cnt = 0) ∧
      completes (transition t ev) (emittedCnt (transition t ev) s.cnt s.acc) = false ∧
      tableEvent t ev s =
        advance (transition t ev) (emittedCnt (transition t ev) s.cnt s.acc)
          (emittedAcc (transition t ev) s.cnt s.acc) s) := by
  by_cases hself : transition t ev = t
  · simp [tableEvent, hself]
  by_cases hover : emits (transition t ev) = true ∧ s.cnt = 0
  · simp [tableEvent, hself, hover.1, hover.2]
  by_cases hdone : completes (transition t ev) (emittedCnt (transition t ev) s.cnt s.acc) = true
  · simp [tableEvent, hself, hover, hdone]
  · simp [tableEvent, hself, hover, hdone]

/-- `on_event` answers a next state in one of three ways (R90, R91). -/
theorem onEvent_next {ev : Event} {s s' : State} (h : onEvent ev s = .next s') :
    (s.evtEn = false ∧ s' = respond noRsp s) ∨
    (s.evtEn = true ∧ s.st = .begin_ ∧ s' = firstSync s) ∨
    (∃ t, s.evtEn = true ∧ s.st = .table t ∧ s' = tableEvent t ev s) := by
  unfold onEvent at h
  split at h
  next he =>
    split at h
    next hs => exact .inr (.inl ⟨he, hs, (Host.Outcome.next.inj h).symm⟩)
    next t hs => exact .inr (.inr ⟨t, he, hs, (Host.Outcome.next.inj h).symm⟩)
    next => cases h
  next he => exact .inl ⟨by simpa using he, (Host.Outcome.next.inj h).symm⟩

theorem onEvent_masked {s : State} (ev : Event) (h : s.evtEn = false) :
    onEvent ev s = .next (respond noRsp s) := by
  simp [onEvent, h]

theorem onEvent_begin {s : State} (ev : Event) (he : s.evtEn = true) (hs : s.st = .begin_) :
    onEvent ev s = .next (firstSync s) := by
  simp [onEvent, he, hs]

theorem onEvent_table {s : State} {t : TableState} (ev : Event) (he : s.evtEn = true)
    (hs : s.st = .table t) : onEvent ev s = .next (tableEvent t ev s) := by
  simp [onEvent, he, hs]

theorem onEvent_end {s : State} (ev : Event) (he : s.evtEn = true) (hs : s.st = .end_) :
    onEvent ev s = .refused .eventInEnd := by
  simp [onEvent, he, hs]

/-! ### TAKE's response -/

theorem takeRsp_of_avail {s : State} (h : s.avail = true) :
    takeRsp s = someRsp (s.word.zeroExtend 16) := by
  simp [takeRsp, h]

theorem takeRsp_of_not_avail {s : State} (h : s.avail = false) : takeRsp s = noRsp := by
  simp [takeRsp, h]

/-! ### The cycle -/

/-- A cycle answers a next state in one of three ways (30_encoding.md R79). -/
theorem runCycle_next {c : Cycle} {s s' : State} (h : runCycle c s = .next s') :
    (c.rst = true ∧ s' = hardReset s) ∨
    (c.rst = false ∧ c.reqValid = true ∧ exec (decode c.req) s = .next s') ∨
    (c.rst = false ∧ c.reqValid = false ∧ s' = respond noRsp s) := by
  unfold runCycle at h
  split at h
  next hr => exact .inl ⟨hr, (Host.Outcome.next.inj h).symm⟩
  next hr =>
    split at h
    next hv => exact .inr (.inl ⟨by simpa using hr, hv, h⟩)
    next hv => exact .inr (.inr ⟨by simpa using hr, by simpa using hv, (Host.Outcome.next.inj h).symm⟩)

theorem presented_cons {s : State} {c : Cycle} {rest : List Cycle} (h : s.env = c :: rest) :
    presented s = c := by
  simp [presented, h]

theorem presented_nil {s : State} (h : s.env = []) : presented s = .idle := by
  simp [presented, h]

/-! ### The pseudo-operation FRAME -/

/-- A half cell like the one before it has no edge at its start. -/
theorem edgesOf_same (first : Ticks) (h i : Nat) (x : Half) (hs : List Half) (last : Option Nat) :
    edgesOf first h (x :: hs) i x last = edgesOf first h hs (i + 1) x last := by
  simp [edgesOf]

/-- A half cell unlike the one before it has an edge at its start. -/
theorem edgesOf_change (first : Ticks) (h i : Nat) {x prev : Half} (hs : List Half) (last : Option Nat)
    (hx : x ≠ prev) :
    edgesOf first h (x :: hs) i prev last =
      .edge (decide (prev = .pulse)) (edgeTicks first h i last) :: edgesOf first h hs (i + 1) x (some i) := by
  simp [edgesOf, hx]

end Sys2Proof.Machine
end

