-- ==== Sys2Proof/Laws/PerInstr.lean ====
section
/-!
SUPPORT. One statement per operation: it is well formed, and its request word has the match bits of its
row of spec/opcode_table.json under the row's mask.
-/

namespace Sys2Proof.Laws.TableRow

/-- The operation is well formed and its request word matches its row of the opcode table. -/
def Statement (i : Instr) : Prop := i.wellFormed = true ∧ encode i &&& (tableRow i).1 = (tableRow i).2

theorem nop : Statement .nop := ⟨by decide, by decide⟩

theorem edge (level : Bool) (ticks : Ticks) : Statement (.edge level ticks) := by
  refine ⟨?_, ?_⟩
  · cases level <;> simp [Instr.wellFormed, Instr.line, TraceLine.wellFormed, ticks.isLt]
  · apply BitVec.eq_of_getLsbD_eq
    intro i hi
    simp only [encode, encodeG, tableRow, BitVec.getLsbD_and, BitVec.getLsbD_append]
    interval_cases i <;> simp

theorem evSS : Statement .evSS := ⟨by decide, by decide⟩

theorem evSP : Statement .evSP := ⟨by decide, by decide⟩

theorem evLS : Statement .evLS := ⟨by decide, by decide⟩

theorem evLP : Statement .evLP := ⟨by decide, by decide⟩

theorem arm : Statement .arm := ⟨by decide, by decide⟩

theorem take : Statement .take := ⟨by decide, by decide⟩

/-- A format W word has its operation code's bits and nothing else under the row's mask. -/
theorem encodeW_match (op : BitVec 3) (w : HalfWord) : encodeW op w &&& 0xE00000000#36 = op ++ 0#33 := by
  apply BitVec.eq_of_getLsbD_eq
  intro i hi
  simp only [encodeW, BitVec.getLsbD_and, BitVec.getLsbD_append]
  interval_cases i <;> simp

theorem xcmd (w : HalfWord) : Statement (.xcmd w) :=
  ⟨by simp [Instr.wellFormed, Instr.line, TraceLine.wellFormed, w.isLt],
    (encodeW_match 0b101#3 w).trans rfl⟩

theorem xtog (w : HalfWord) : Statement (.xtog w) :=
  ⟨by simp [Instr.wellFormed, Instr.line, TraceLine.wellFormed, w.isLt],
    (encodeW_match 0b110#3 w).trans rfl⟩

theorem xaddr (w : HalfWord) : Statement (.xaddr w) :=
  ⟨by simp [Instr.wellFormed, Instr.line, TraceLine.wellFormed, w.isLt],
    (encodeW_match 0b111#3 w).trans rfl⟩

end Sys2Proof.Laws.TableRow
end

