-- ==== Sys2Proof/Tests/Slice0.lean ====
section
/-!
SUPPORT. Tests. Expected values are the spec's: words written out from the encodings of
spec/30_encoding.md, the vectors of spec/95_test_vectors.md (named in the comments), and for every
statement with hypotheses a witness that meets them. "Armed" states carry the bounds 1334 and 2222 of the
vectors.
-/

namespace Sys2Proof.Tests

open Sys2Proof Sys2Proof.Machine

/-- A state of the vectors: events enabled, nothing latched. -/
def at_ (st : Ctrl) (cnt : Count) (acc : FrameWord) : State :=
  { State.resetWith 1334#32 2222#32 with st := st, cnt := cnt, acc := acc, evtEn := true }

/-- The armed state. -/
def armed : State := at_ .begin_ 14 0#14

/-- The state after a completed decode of `w`. -/
def latched (w : FrameWord) : State :=
  { at_ .end_ 0 w with word := w, avail := true, evtEn := false }

/-- What a test checks of an outcome: it is a next state and has the property. -/
def nextHas (o : Outcome) (p : State → Bool) : Bool :=
  match o with
  | .next s => p s
  | .fault _ => false
  | .refused _ => false

/-- STATE, CNT, ACC, WORD, AVAIL, EVT_EN, `tick_clr`, the columns of the vectors. -/
def regs (st : Ctrl) (cnt : Count) (acc word : FrameWord) (avail evtEn tickClr : Bool) (s : State) : Bool :=
  s.st = st && s.cnt = cnt && s.acc = acc && s.word = word && s.avail = avail && s.evtEn = evtEn &&
    s.out.tickClr = tickClr

/-! ### Well-formedness: an ill-formed term for each check -/

theorem test_wf_request_too_wide : isRequestWord (2 ^ 36) = false := by decide
theorem test_wf_edge_level : TraceLine.wellFormed ⟨.edge, [2, 0]⟩ = false := by decide
theorem test_wf_edge_ticks : TraceLine.wellFormed ⟨.edge, [1, 2 ^ 32]⟩ = false := by decide
theorem test_wf_helper_word : TraceLine.wellFormed ⟨.xcmd, [2 ^ 16]⟩ = false ∧
    TraceLine.wellFormed ⟨.xtog, [2 ^ 16]⟩ = false ∧ TraceLine.wellFormed ⟨.xaddr, [2 ^ 16]⟩ = false := by decide
theorem test_wf_operand_count : TraceLine.wellFormed ⟨.arm, [0]⟩ = false ∧
    TraceLine.wellFormed ⟨.edge, [1]⟩ = false ∧ TraceLine.wellFormed ⟨.xcmd, []⟩ = false := by decide
theorem test_wf_frame_word : TraceLine.wellFormed ⟨.frame, [2 ^ 14 + 2 ^ 13, 0, 889]⟩ = false := by decide
theorem test_wf_frame_leading_bit : TraceLine.wellFormed ⟨.frame, [0x1FFF, 0, 889]⟩ = false := by decide
theorem test_wf_frame_first : TraceLine.wellFormed ⟨.frame, [0x3410, 2 ^ 32, 889]⟩ = false := by decide
theorem test_wf_frame_half_cell : TraceLine.wellFormed ⟨.frame, [0x3410, 0, 2 ^ 31]⟩ = false := by decide
theorem test_wf_frame_accepted : TraceLine.wellFormed ⟨.frame, [0x3410, 0, 889]⟩ = true := by decide

/-! ### Decoding: words written out bit by bit from R60 to R65, ignored bits at 1 where there are some -/

theorem test_decode_nop : decode 0b000_111111111111111111111111111111111#36 = .nop := by decide
theorem test_decode_edge : decode 0b001_1_00000000000000000000001101111001#36 = .edge true 889#32 := by decide
theorem test_decode_evSS : decode 0b010_1111111111111111111111111111111_00#36 = .evSS := by decide
theorem test_decode_evSP : decode 0b010_1111111111111111111111111111111_01#36 = .evSP := by decide
theorem test_decode_evLS : decode 0b010_1111111111111111111111111111111_10#36 = .evLS := by decide
theorem test_decode_evLP : decode 0b010_1111111111111111111111111111111_11#36 = .evLP := by decide
theorem test_decode_arm : decode 0b011_111111111111111111111111111111111#36 = .arm := by decide
theorem test_decode_take : decode 0b100_111111111111111111111111111111111#36 = .take := by decide
theorem test_decode_xcmd : decode 0b101_11111111111111111_0011010000010000#36 = .xcmd 0x3410#16 := by decide
theorem test_decode_xtog : decode 0b110_11111111111111111_1000010000010001#36 = .xtog 0x8411#16 := by decide
theorem test_decode_xaddr : decode 0b111_11111111111111111_0011010000010000#36 = .xaddr 0x3410#16 := by decide
theorem test_decode_table_word : decodeTableWord 40 0x300000379 = some (.edge true 889#32) ∧
    decodeTableWord 40 (2 ^ 36) = none := by decide

/-! ### One step of each operation -/

-- L11
theorem test_nop : nextHas (exec .nop (latched 0x3410#14))
    (fun s => regs .end_ 0 0x3410#14 0x3410#14 true false false s && s.out.rsp = 0#17) = true := by decide
-- the example of R80, and K9: a count at HIGH_BOUND is short
theorem test_edge_short_pulse : nextHas (exec (.edge true 889#32) (at_ (.table .mid1) 13 0x2000#14))
    (regs (.table .start1) 13 0x2000#14 0#14 false true true) = true := by decide
theorem test_edge_at_the_bounds :
    classify 1334#32 2222#32 true 2222#32 = .sp ∧ classify 1334#32 2222#32 false 1334#32 = .ss ∧
    classify 1334#32 2222#32 true 2221#32 = .lp ∧ classify 1334#32 2222#32 false 1335#32 = .ls := by decide
-- S5, S13
theorem test_evSS_start1 : nextHas (exec .evSS (at_ (.table .start1) 13 0x2000#14))
    (regs (.table .mid1) 12 0x3000#14 0#14 false true true) = true := by decide
theorem test_evSS_mid0 : nextHas (exec .evSS (at_ (.table .mid0) 11 0x3000#14))
    (regs (.table .start0) 11 0x3000#14 0#14 false true true) = true := by decide
-- C1, C7
theorem test_evSP_completes_mid1 : nextHas (exec .evSP (at_ (.table .mid1) 0 0x3FFF#14))
    (regs .end_ 0 0x3FFF#14 0x3FFF#14 true false true) = true := by decide
theorem test_evSP_completes_start0 : nextHas (exec .evSP (at_ (.table .start0) 1 0x3410#14))
    (regs .end_ 0 0x3410#14 0x3410#14 true false true) = true := by decide
-- the example of R120, and S7
theorem test_evLS_mid0 : nextHas (exec .evLS (at_ (.table .mid0) 11 0x3000#14))
    (regs (.table .mid1) 10 0x3400#14 0#14 false true true) = true := by decide
theorem test_evLS_start1_error : nextHas (exec .evLS (at_ (.table .start1) 13 0x2000#14))
    (fun s => regs .begin_ 14 0#14 0#14 false true true s && s.out.err = some .self) = true := by decide
-- C5, C2
theorem test_evLP_completes : nextHas (exec .evLP (at_ (.table .mid1) 1 0x3AAA#14))
    (regs .end_ 0 0x3AAA#14 0x3AAA#14 true false true) = true := by decide
theorem test_evLP_overrun : nextHas (exec .evLP (at_ (.table .mid1) 0 0x3FFF#14))
    (fun s => regs .begin_ 14 0#14 0#14 false true true s && s.out.err = some .overrun) = true := by decide
-- L3
theorem test_arm : nextHas (exec .arm (latched 0x3410#14))
    (regs .begin_ 14 0#14 0#14 false true false) = true := by decide
-- L7, L6
theorem test_take_word : nextHas (exec .take (latched 0x3410#14))
    (fun s => regs .end_ 0 0x3410#14 0x3410#14 true false false s && s.out.rsp = 0x13410#17) = true := by decide
theorem test_take_nothing : nextHas (exec .take (at_ (.table .mid1) 0 0x3801#14))
    (fun s => s.out.rsp = 0#17) = true := by decide
-- X1, X6
theorem test_xcmd : nextHas (exec (.xcmd 0x3410#16) armed) (fun s => s.out.rsp = 0x10010#17) = true ∧
    nextHas (exec (.xcmd 0xFFFF#16) armed) (fun s => s.out.rsp = 0x1003F#17) = true := by decide
-- X1, X11
theorem test_xtog : nextHas (exec (.xtog 0x3410#16) armed) (fun s => s.out.rsp = 0x10000#17) = true ∧
    nextHas (exec (.xtog 0x0800#16) armed) (fun s => s.out.rsp = 0x10001#17) = true := by decide
-- X1, X9
theorem test_xaddr : nextHas (exec (.xaddr 0x3410#16) armed) (fun s => s.out.rsp = 0x10010#17) = true ∧
    nextHas (exec (.xaddr 0x07C0#16) armed) (fun s => s.out.rsp = 0x1001F#17) = true := by decide
-- P1 steps 2 and 3: in the reset state an EDGE is masked and ARM enables events
theorem test_step_from_reset :
    nextHas (step (State.reset.withFetchWord 40 0x200000000)) (regs .begin_ 14 0#14 0#14 false false false) = true ∧
    nextHas (step (State.reset.withFetchWord 40 0x600000000)) (regs .begin_ 14 0#14 0#14 false true false) = true := by
  decide
-- R79: reset wins over the request
theorem test_step_reset : nextHas (step { latched 0x3410#14 with env := [⟨true, true, 0x800000000#36⟩] })
    (fun s => regs .begin_ 14 0#14 0#14 false false false s && s.out.rsp = 0#17) = true := by decide
-- F4: the classified edges of FRAME 0x3AAA, 0, 889
theorem test_frame_events :
    (frameOps 0x3AAA#14 0#32 889).map (fun i => eventIn i armed) =
      [.ss, .sp, .ss, .sp, .ss, .lp, .ls, .lp, .ls, .lp, .ls, .lp, .ls, .lp, .ls, .lp].map some := by decide
-- R75, R76
theorem test_trace_line : parseLine "P: EDGE 1, 0x379 ; short pulse".toList = .ok (some ⟨.edge, [1, 889]⟩) := by
  decide
theorem test_trace_alias : parseLine "reset_decoder".toList = .ok (some ⟨.arm, []⟩) ∧
    parseLine "on_event(long-space)".toList = .ok (some ⟨.evLS, []⟩) := by decide
/-- The literal is that of R11; the lines with no digit are log entry 13. -/
theorem test_trace_number : number? "0b11_0_10000_010000".toList = some 0x3410 ∧
    parseLine "XCMD _".toList = .error .badNumber ∧ parseLine "XCMD 0x_".toList = .error .badNumber ∧
    parseLine "XCMD 0b".toList = .error .badNumber ∧ parseLine "XCMD 0".toList = .ok (some ⟨.xcmd, [0]⟩) := by
  decide

/-! ### Witnesses: the hypotheses of every statement are met -/

theorem witness_RequestFieldsDecode :
    (0#36).extractLsb' 33 3 = 0b000#3 ∧ (0x300000379#36).extractLsb' 33 3 = 0b001#3 ∧
    ((0x400000000#36).extractLsb' 33 3 = 0b010#3 ∧ (0x400000000#36).extractLsb' 0 2 = 0b00#2) ∧
    ((0x400000001#36).extractLsb' 33 3 = 0b010#3 ∧ (0x400000001#36).extractLsb' 0 2 = 0b01#2) ∧
    ((0x400000002#36).extractLsb' 33 3 = 0b010#3 ∧ (0x400000002#36).extractLsb' 0 2 = 0b10#2) ∧
    ((0x5FFFFFFFF#36).extractLsb' 33 3 = 0b010#3 ∧ (0x5FFFFFFFF#36).extractLsb' 0 2 = 0b11#2) ∧
    (0x600000000#36).extractLsb' 33 3 = 0b011#3 ∧ (0x800000000#36).extractLsb' 33 3 = 0b100#3 ∧
    (0xA00003410#36).extractLsb' 33 3 = 0b101#3 ∧ (0xC00003410#36).extractLsb' 33 3 = 0b110#3 ∧
    (0xFFFFFFFFF#36).extractLsb' 33 3 = 0b111#3 := by decide

theorem witness_DecodeAndEncodeAgree : (Instr.edge true 0xFFFFFFFF#32).wellFormed = true := by decide

theorem witness_OnlyTooWideNumbersRejected : 2 ^ 36 - 1 < 2 ^ 36 ∧ 2 ^ 36 ≤ 2 ^ 36 := by decide

/-- A cycle of each kind, presented first. -/
theorem witness_CycleResetsRunsOrIdles : ∀ c ∈ [Cycle.reset, Cycle.request 0x600000000#36, Cycle.idle],
    ({ armed with env := [c] } : State).env = c :: [] ∧
      (c.rst = true ∨ c.rst = false ∧ c.reqValid = true ∨ c.rst = false ∧ c.reqValid = false) := by decide

theorem witness_NothingPresentedChangesNothing : (latched 0x3410#14).env = [] := by decide

theorem witness_StepRunsThePresentedOperation : Instr.evLP.wellFormed = true := by decide

theorem witness_ResetValues :
    ({ latched 0x3410#14 with env := [Cycle.reset] } : State).env = Cycle.reset :: [] ∧ Cycle.reset.rst = true ∧
    (latched 0x3410#14).lowBound = 1334#32 ∧ (latched 0x3410#14).highBound = 2222#32 := by decide

theorem witness_ResetDiffersFromArmInEventEnable : isEventOp (.edge false 5000#32) = true := by decide

theorem witness_EveryStepKeepsTheInvariant :
    ({ armed with env := [Cycle.request 0x400000000#36] } : State).Inv ∧
    ∃ t, step { armed with env := [Cycle.request 0x400000000#36] } = .next t := ⟨by decide, _, rfl⟩

theorem witness_MaskedOnlyInEndAfterArm :
    (∃ t, exec .arm State.reset = .next t) ∧
    (at_ (.table .mid1) 0 0x3FFF#14).Inv ∧ (at_ (.table .mid1) 0 0x3FFF#14).Armed ∧
    ∃ t, exec .evSP (at_ (.table .mid1) 0 0x3FFF#14) = .next t :=
  ⟨⟨_, rfl⟩, by decide, by decide, _, rfl⟩

theorem witness_RunNeverStops : (latched 0x3410#14).Inv ∧ State.reset.Inv := ⟨by decide, by decide⟩

theorem witness_LatchedWordStartsWithOne : (at_ (.table .mid1) 0 0x3FFF#14).Inv ∧
    ∃ t, exec .evSP (at_ (.table .mid1) 0 0x3FFF#14) = .next t ∧ t.avail = true :=
  ⟨by decide, _, rfl, by decide⟩

theorem witness_NopChangesNoRegister :
    ({ armed with env := [Cycle.idle] } : State).env = ⟨false, false, 0#36⟩ :: [] := by decide

theorem witness_TakeReadsTheLatch : (latched 0x3410#14).avail = true ∧ (latched 0x3410#14).word = 0x3410#14 ∧
    armed.avail = false ∧ armed.Inv ∧ armed.st ≠ .end_ := by decide

theorem witness_TakeAnswersAlikeUntilArm :
    (∃ t u, exec .take (latched 0x3410#14) = .next t ∧ exec .take t = .next u) ∧
    (latched 0x3410#14).Inv ∧ (latched 0x3410#14).avail = true ∧
    Instr.arm ∉ [Instr.edge true 300#32, .evLP, .nop, .xcmd 0#16] :=
  ⟨⟨_, _, rfl, rfl⟩, by decide, by decide, by decide⟩

/-- The thirteen first events of the fourteen that 0x2AAA takes. -/
theorem witness_NoWordBeforeFourteenEvents :
    (∃ t, exec .arm State.reset = .next t) ∧
    [Instr.evSS, .evLP, .evLS, .evLP, .evLS, .evLP, .evLS, .evLP, .evLS, .evLP, .evLS, .evLP,
      .evLS].countP isEventOp = 13 ∧
    nextHas (runOps [.evSS, .evLP, .evLS, .evLP, .evLS, .evLP, .evLS, .evLP, .evLS, .evLP, .evLS, .evLP, .evLS]
      armed) (regs (.table .mid1) 1 0x2AAA#14 0#14 false true true) = true := by
  refine ⟨⟨_, rfl⟩, ?_, ?_⟩ <;> decide

theorem witness_XcmdGivesTheCommandBits :
    (0xFFC0#16).extractLsb' 0 6 = (0x0000#16).extractLsb' 0 6 ∧ opField 0xA00003410#36 = 0b101#3 := by decide

theorem witness_XtogGivesTheToggleBit : (0x0800#16).getLsbD 11 = (0xFFFF#16).getLsbD 11 := by decide

theorem witness_XaddrGivesTheAddressBits :
    (0x07C0#16).extractLsb' 6 5 = (0xFFFF#16).extractLsb' 6 5 := by decide

theorem witness_HelpersArePure :
    Instr.xtog 0x3410#16 ∈ [Instr.xcmd 0x3410#16, .xtog 0x3410#16, .xaddr 0x3410#16] := by decide

theorem witness_ClassifierWindow :
    ((1334#32).toNat < (1335#32).toNat ∧ (1335#32).toNat < (2222#32).toNat) ∧
    ((1334#32).toNat < (2221#32).toNat ∧ (2221#32).toNat < (2222#32).toNat) ∧
    ¬((1334#32).toNat < (1334#32).toNat ∧ (1334#32).toNat < (2222#32).toNat) ∧
    ¬((1334#32).toNat < (2222#32).toNat ∧ (2222#32).toNat < (2222#32).toNat) := by decide

theorem witness_EmptyWindowIsNeverLong :
    (1778#32).toNat ≤ (1777#32).toNat + 1 ∧ (1334#32).toNat ≤ (2222#32).toNat + 1 := by decide

theorem witness_MaskedEventChangesNothing :
    isEventOp (.edge false 5000#32) = true ∧ (latched 0x3410#14).evtEn = false ∧ (latched 0x3410#14).Inv ∧
    (latched 0x3410#14).st = .end_ := by decide

/-- The counter at both ends of its range, and the armed state. -/
theorem witness_FirstEdgeIsTheLeadingSyncBit :
    isEventOp .evSP = true ∧ armed.evtEn = true ∧ armed.st = .begin_ ∧ armed.cnt.val = (13 : Count).val + 1 ∧
    (at_ .begin_ 1 0#14).cnt.val = (0 : Count).val + 1 ∧ armed.Inv := by decide

theorem witness_DecrementAtZeroIsFree :
    isEventOp .evLS = true ∧ (at_ .begin_ 0 0#14).evtEn = true ∧ (at_ .begin_ 0 0#14).st = .begin_ ∧
    (at_ .begin_ 0 0#14).cnt = 0 := by decide

/-- The event, and a counter that each clause names, at the ends of its range. -/
theorem witness_ShortSpaceInStart1EmitsOne : ∀ s ∈ [at_ (.table .start1) 1 0x3FFE#14,
      at_ (.table .start1) 14 0#14, at_ (.table .start1) 0 0x3FFF#14],
    eventIn .evSS s = some .ss ∧ eventIn (.edge false 889#32) s = some .ss ∧ s.evtEn = true ∧
    s.st = .table .start1 ∧
    (s.cnt.val = (0 : Count).val + 1 ∨ s.cnt.val = (13 : Count).val + 1 ∨ s.cnt = 0) := by decide

theorem witness_ShortPulseInMid1EndsTheCell : ∀ s ∈ [at_ (.table .mid1) 1 0x3FFE#14,
      at_ (.table .mid1) 0 0x3FFF#14],
    eventIn .evSP s = some .sp ∧ eventIn (.edge true 889#32) s = some .sp ∧ s.evtEn = true ∧
    s.st = .table .mid1 ∧ (s.cnt ≠ 0 ∨ s.cnt = 0) := by decide

theorem witness_LongPulseInMid1EmitsZero : ∀ s ∈ [at_ (.table .mid1) 2 0x3554#14,
      at_ (.table .mid1) 1 0x3AAA#14, at_ (.table .mid1) 0 0x3FFF#14],
    eventIn .evLP s = some .lp ∧ eventIn (.edge true 1778#32) s = some .lp ∧ s.evtEn = true ∧
    s.st = .table .mid1 ∧
    (s.cnt.val = (1 : Count).val + 1 ∧ (1 : Count) ≠ 0 ∨ s.cnt = 1 ∨ s.cnt = 0) := by decide

theorem witness_ShortSpaceInMid0EndsTheCell :
    eventIn .evSS (at_ (.table .mid0) 1 0x3800#14) = some .ss ∧
    eventIn (.edge false 889#32) (at_ (.table .mid0) 1 0x3800#14) = some .ss ∧
    (at_ (.table .mid0) 1 0x3800#14).evtEn = true ∧ (at_ (.table .mid0) 1 0x3800#14).st = .table .mid0 := by
  decide

theorem witness_LongSpaceInMid0EmitsOne : ∀ s ∈ [at_ (.table .mid0) 1 0x3800#14,
      at_ (.table .mid0) 14 0#14, at_ (.table .mid0) 0 0x3800#14],
    eventIn .evLS s = some .ls ∧ eventIn (.edge false 1778#32) s = some .ls ∧ s.evtEn = true ∧
    s.st = .table .mid0 ∧
    (s.cnt.val = (0 : Count).val + 1 ∨ s.cnt.val = (13 : Count).val + 1 ∨ s.cnt = 0) := by decide

theorem witness_ShortPulseInStart0EmitsZero : ∀ s ∈ [at_ (.table .start0) 2 0x3410#14,
      at_ (.table .start0) 1 0x3410#14, at_ (.table .start0) 0 0x3410#14],
    eventIn .evSP s = some .sp ∧ eventIn (.edge true 889#32) s = some .sp ∧ s.evtEn = true ∧
    s.st = .table .start0 ∧
    (s.cnt.val = (1 : Count).val + 1 ∧ (1 : Count) ≠ 0 ∨ s.cnt = 1 ∨ s.cnt = 0) := by decide

theorem witness_FourteenthBitOneWaits :
    (eventIn .evLP (at_ (.table .mid1) 2 0x3554#14) = some .lp ∧
      ∃ t, exec .evLP (at_ (.table .mid1) 2 0x3554#14) = .next t ∧ t.out.err = none ∧ t.st ≠ .end_) ∧
    ((at_ (.table .start1) 1 0x3FFE#14).cnt = 1 ∧
      eventIn .evSS (at_ (.table .start1) 1 0x3FFE#14) = some .ss ∧
      ∃ t, exec .evSS (at_ (.table .start1) 1 0x3FFE#14) = .next t) ∧
    ((at_ (.table .mid0) 1 0x3800#14).cnt = 1 ∧ eventIn .evLS (at_ (.table .mid0) 1 0x3800#14) = some .ls ∧
      ∃ t, exec .evLS (at_ (.table .mid0) 1 0x3800#14) = .next t) ∧
    (at_ (.table .mid1) 0 0x3FFF#14).cnt = 0 ∧ eventIn .evLS (at_ (.table .mid1) 0 0x3FFF#14) = some .ls :=
  ⟨⟨by decide, _, rfl, by decide, by decide⟩, ⟨by decide, by decide, _, rfl⟩, ⟨by decide, by decide, _, rfl⟩,
    by decide, by decide⟩

theorem witness_UndefinedTransitionRearms :
    eventIn (.edge false 889#32) (at_ (.table .mid1) 12 0x3000#14) = some .ss ∧
    (at_ (.table .mid1) 12 0x3000#14).evtEn = true ∧ (at_ (.table .mid1) 12 0x3000#14).st = .table .mid1 ∧
    transition .mid1 .ss = .mid1 ∧
    ∃ u, exec (.edge false 889#32) (at_ (.table .mid1) 12 0x3000#14) = .next u ∧ u.out.err = some .self :=
  ⟨by decide, by decide, by decide, by decide, _, rfl, by decide⟩

theorem witness_OverrunRearms :
    eventIn .evLP (at_ (.table .mid1) 0 0x3FFF#14) = some .lp ∧ (at_ (.table .mid1) 0 0x3FFF#14).evtEn = true ∧
    (at_ (.table .mid1) 0 0x3FFF#14).cnt = 0 ∧ transition .mid1 .lp ≠ .mid1 ∧ transition .mid1 .lp = .mid0 ∧
    (at_ (.table .mid1) 0 0x3FFF#14).Inv ∧
    ∃ u, exec .evLP (at_ (.table .mid1) 0 0x3FFF#14) = .next u ∧ u.out.err = some .overrun :=
  ⟨by decide, by decide, by decide, by decide, by decide, by decide, _, rfl, by decide⟩

theorem witness_ProtocolErrorIsAnArm :
    ∃ t, exec .evSS (at_ (.table .mid1) 12 0x3000#14) = .next t ∧ t.out.err = some .self :=
  ⟨_, rfl, by decide⟩

theorem witness_EventAfterErrorIsTheFirstSyncBit :
    (∃ t, exec .evLP (at_ (.table .mid1) 0 0x3FFF#14) = .next t ∧ t.out.err = some .overrun) ∧
    isEventOp (.edge true 0#32) = true := ⟨⟨_, rfl, by decide⟩, by decide⟩

theorem witness_EventInEndIsRefused :
    isEventOp .evSP = true ∧ (at_ .end_ 0 0x3410#14).st = .end_ ∧ (at_ .end_ 0 0x3410#14).evtEn = true ∧
    (latched 0x3410#14).Accepts ∧ armed.Accepts ∧ (latched 0x3410#14).Inv := by decide

theorem witness_TickClearOnDeliveredEvents :
    (∃ t, exec .evSS armed = .next t) ∧ ∃ t, exec .evSS (latched 0x3410#14) = .next t := ⟨⟨_, rfl⟩, _, rfl⟩

theorem witness_ResponseWords : ∀ i ∈ [Instr.evSS, .nop, .arm, .take, .xcmd 0x3410#16, .xtog 0x3410#16,
    .xaddr 0x3410#16], nextHas (exec i (latched 0x3410#14)) (fun _ => true) = true := by decide

theorem witness_ReadsHaveNoSideEffect : isEventOp .take = false ∧ Instr.take ≠ .arm := by decide

theorem witness_ConfigurationIsConstant :
    (∃ t, step { armed with env := [Cycle.reset] } = .next t) ∧ (∃ t, exec (.edge true 889#32) armed = .next t) ∧
    (∀ l k, Instr.evSS ≠ .edge l k) ∧ ∃ t, exec .evSS armed = .next t :=
  ⟨⟨_, rfl⟩, ⟨_, rfl⟩, fun _ _ h => Instr.noConfusion h, _, rfl⟩

theorem witness_CounterFallsAndBitsStay : armed.Inv ∧ Instr.evSS ≠ .arm ∧
    ∃ t, exec .evSS armed = .next t ∧ t.out.err = none := ⟨by decide, by decide, _, rfl, by decide⟩

theorem witness_LatchWrittenByCompletionOrArming :
    (∃ t, exec .evSP (at_ (.table .mid1) 0 0x3FFF#14) = .next t ∧
      (at_ (.table .mid1) 0 0x3FFF#14).avail = false ∧ t.avail = true ∧
      t.word ≠ (at_ (.table .mid1) 0 0x3FFF#14).word) ∧
    ∃ t, exec .arm (latched 0x3410#14) = .next t ∧ (latched 0x3410#14).avail = true ∧ t.avail = false :=
  ⟨⟨_, rfl, by decide, by decide, by decide⟩, _, rfl, by decide, by decide⟩

theorem witness_OperationsIgnoreTheModelsFields : ∃ t, exec .evSS armed = .next t := ⟨_, rfl⟩

/-- The least and the greatest half cell that the bounds 1334 and 2222 admit. -/
theorem witness_FrameDecodesToItsWord : (0x2000#14).getLsbD 13 = true ∧ armed.st = .begin_ ∧ armed.cnt = 14 ∧
    armed.acc = 0#14 ∧ armed.evtEn = true ∧
    (668 ≤ armed.lowBound.toNat ∧ armed.lowBound.toNat < 2 * 668 ∧ 2 * 668 < armed.highBound.toNat) ∧
    (1110 ≤ armed.lowBound.toNat ∧ armed.lowBound.toNat < 2 * 1110 ∧ 2 * 1110 < armed.highBound.toNat) := by
  decide

theorem witness_FrameEdgesAreEven : (0x3FFF#14).getLsbD 13 = true ∧ (0x3AAA#14).getLsbD 13 = true := by decide

theorem witness_EveryWordCanBeLatched : (0x2000#14).getLsbD 13 = true := by decide

theorem witness_AlternatingEdgesLockOut : armed.Inv ∧ armed.st = .begin_ ∧ armed.evtEn = true := by decide

end Sys2Proof.Tests
end

section
/-!
PROOFS, spec/10_state.md. What `exec` and `step` can do, said once on top of the laws of the shared
operations, then the statements about the configuration (R28) and the reset values (R35, R180).
-/

namespace Sys2Proof.Machine

/-! ### The operations -/

/-- Every EDGE and EVENT is `on_event` of the event it delivers, a masked EDGE included (R80, R86, R91). -/
theorem exec_of_eventIn {i : Instr} {s : State} {ev : Event} (h : eventIn i s = some ev) :
    exec i s = onEvent ev s := by
  cases i with
  | edge level ticks =>
    obtain rfl : classify s.lowBound s.highBound level ticks = ev := Option.some.inj h
    show execEdge level ticks s = _
    by_cases he : s.evtEn = true
    · simp [execEdge, he]
    · simp [execEdge, onEvent, he]
  | evSS | evSP | evLS | evLP => cases h; rfl
  | nop | arm | take | xcmd _ | xtog _ | xaddr _ => cases h

@[simp] theorem exec_arm (s : State) : exec .arm s = .next (respond noRsp (doArm s)) := rfl

/-- An operation answers a next state in one of three ways: it delivers an event, it arms, or it drives a
response and writes no register (R46). -/
theorem exec_next {i : Instr} {s t : State} (h : exec i s = .next t) :
    (∃ ev, eventIn i s = some ev ∧ onEvent ev s = .next t) ∨
    (i = .arm ∧ t = respond noRsp (doArm s)) ∨
    (isEventOp i = false ∧ i ≠ .arm ∧ ∃ rsp, t = respond rsp s) := by
  cases i with
  | edge | evSS | evSP | evLS | evLP => exact .inl ⟨_, rfl, (exec_of_eventIn rfl).symm.trans h⟩
  | arm => exact .inr (.inl ⟨rfl, (Host.Outcome.next.inj h).symm⟩)
  | nop | take | xcmd _ | xtog _ | xaddr _ =>
    exact .inr (.inr ⟨rfl, nofun, _, (Host.Outcome.next.inj h).symm⟩)

/-! ### The cycle -/

theorem runCycle_of_rst {c : Cycle} (s : State) (h : c.rst = true) :
    runCycle c s = .next (hardReset s) := by
  simp [runCycle, h]

theorem moveOn_cons {s : State} {c : Cycle} {rest : List Cycle} (h : s.env = c :: rest) :
    moveOn s = { s with env := rest } := by
  simp [moveOn, h]

theorem step_cons {s : State} {c : Cycle} {rest : List Cycle} (h : s.env = c :: rest) :
    step s = runCycle c { s with env := rest } := by
  rw [step, presented_cons h, moveOn_cons h]

/-! ### No operation writes the configuration -/

@[simp] theorem tableEvent_lowBound (t : TableState) (ev : Event) (s : State) :
    (tableEvent t ev s).lowBound = s.lowBound := by
  obtain ⟨-, h⟩ | ⟨-, -, -, h⟩ | ⟨-, -, -, h⟩ | ⟨-, -, -, h⟩ := tableEvent_cases t ev s <;> simp [h]

@[simp] theorem tableEvent_highBound (t : TableState) (ev : Event) (s : State) :
    (tableEvent t ev s).highBound = s.highBound := by
  obtain ⟨-, h⟩ | ⟨-, -, -, h⟩ | ⟨-, -, -, h⟩ | ⟨-, -, -, h⟩ := tableEvent_cases t ev s <;> simp [h]

theorem onEvent_keeps_bounds {ev : Event} {s t : State} (h : onEvent ev s = .next t) :
    t.lowBound = s.lowBound ∧ t.highBound = s.highBound := by
  obtain ⟨-, rfl⟩ | ⟨-, -, rfl⟩ | ⟨_, -, -, rfl⟩ := onEvent_next h <;> simp

theorem exec_keeps_bounds {i : Instr} {s t : State} (h : exec i s = .next t) :
    t.lowBound = s.lowBound ∧ t.highBound = s.highBound := by
  obtain ⟨ev, -, hev⟩ | ⟨-, rfl⟩ | ⟨-, -, rsp, rfl⟩ := exec_next h
  · exact onEvent_keeps_bounds hev
  · simp
  · simp

theorem step_keeps_bounds {s t : State} (h : step s = .next t) :
    t.lowBound = s.lowBound ∧ t.highBound = s.highBound := by
  obtain ⟨-, rfl⟩ | ⟨-, -, hexec⟩ | ⟨-, -, rfl⟩ := runCycle_next h
  · simp
  · simpa using exec_keeps_bounds hexec
  · simp

/-! ### No operation but EDGE reads the configuration

The shared operations commute with a change of the bounds. -/

/-- The same state under another configuration. -/
def State.withBounds (low high : Ticks) (s : State) : State :=
  { s with lowBound := low, highBound := high }

/-- The checks of the general case look at no bound, and each of its four ends keeps the bounds it finds. -/
theorem tableEvent_withBounds (t : TableState) (ev : Event) (low high : Ticks) (s : State) :
    tableEvent t ev (s.withBounds low high) = (tableEvent t ev s).withBounds low high := by
  simp only [tableEvent, apply_ite (State.withBounds low high)]
  rfl

theorem onEvent_withBounds {ev : Event} {s t : State} (low high : Ticks) (h : onEvent ev s = .next t) :
    onEvent ev (s.withBounds low high) = .next (t.withBounds low high) := by
  obtain ⟨he, rfl⟩ | ⟨he, hs, rfl⟩ | ⟨ts, he, hs, rfl⟩ := onEvent_next h
  · exact onEvent_masked ev he
  · exact onEvent_begin ev he hs
  · rw [← tableEvent_withBounds]
    exact onEvent_table ev he hs

theorem exec_withBounds {i : Instr} {s t : State} (low high : Ticks) (hi : ∀ l k, i ≠ .edge l k)
    (h : exec i s = .next t) : exec i (s.withBounds low high) = .next (t.withBounds low high) := by
  cases i with
  | edge level ticks => exact absurd rfl (hi level ticks)
  | evSS | evSP | evLS | evLP => exact onEvent_withBounds low high h
  | nop | arm | take | xcmd _ | xtog _ | xaddr _ => cases h; rfl

/-- Settles O49: what each operation leaves, and that all but EDGE commute with a change of the bounds. -/
theorem configurationIsConstant : Obligations.ConfigurationIsConstant :=
  ⟨fun _ _ => step_keeps_bounds, fun _ _ _ => exec_keeps_bounds,
    fun _ _ _ low high => exec_withBounds low high⟩

/-! ### Reset -/

/-- A reset cycle gives the reset state of the configuration it finds (R79, R180). -/
theorem step_of_rst {u : State} {c : Cycle} {rest : List Cycle} (henv : u.env = c :: rest)
    (hrst : c.rst = true) :
    step u = .next { State.resetWith u.lowBound u.highBound with env := rest } := by
  rw [step_cons henv, runCycle_of_rst _ hrst]
  rfl

/-- The start-up ARM changes `EVT_EN` alone (R182). -/
theorem exec_arm_resetWith (low high : Ticks) :
    exec .arm (State.resetWith low high) = .next { State.resetWith low high with evtEn := true } := rfl

/-- Settles O11: the fields of the reset state, the reset cycle, and the start-up ARM. -/
theorem resetValues : Obligations.ResetValues := by
  intro low high
  refine ⟨rfl, rfl, rfl, rfl, rfl, rfl, rfl, rfl, ?_, exec_arm_resetWith low high⟩
  rintro u c rest henv hrst rfl rfl
  exact step_of_rst henv hrst

end Sys2Proof.Machine
end

section
/-!
PROOFS, spec/20_memory.md. The equations of the operations that only answer a response, and R46: they
write no register.
-/

namespace Sys2Proof.Machine

/-! ### The reading operations -/

@[simp] theorem exec_nop (s : State) : exec .nop s = .next (respond noRsp s) := rfl

@[simp] theorem exec_take (s : State) : exec .take s = .next (respond (takeRsp s) s) := rfl

@[simp] theorem exec_xcmd (w : HalfWord) (s : State) :
    exec (.xcmd w) s = .next (respond (someRsp (commandBits w)) s) := rfl

@[simp] theorem exec_xtog (w : HalfWord) (s : State) :
    exec (.xtog w) s = .next (respond (someRsp (toggleBit w)) s) := rfl

@[simp] theorem exec_xaddr (w : HalfWord) (s : State) :
    exec (.xaddr w) s = .next (respond (someRsp (addressBits w)) s) := rfl

/-- Settles O48: the five reading operations by their equations; each event is excluded by `isEventOp`, and
ARM by name. -/
theorem readsHaveNoSideEffect : Obligations.ReadsHaveNoSideEffect := by
  intro i s hev harm
  cases i with
  | edge | evSS | evSP | evLS | evLP => cases hev
  | arm => exact absurd rfl harm
  | nop => exact ⟨_, exec_nop s⟩
  | take => exact ⟨_, exec_take s⟩
  | xcmd w => exact ⟨_, exec_xcmd w s⟩
  | xtog w => exact ⟨_, exec_xtog w s⟩
  | xaddr w => exact ⟨_, exec_xaddr w s⟩

end Sys2Proof.Machine
end

section
/-!
PROOFS, spec/30_encoding.md. The equations of the decoder by operation code (R61 to R65), the numbers of
the states and the events (R68, R69), the cycle (R79), and the response words (R66).
-/

namespace Sys2Proof

/-! ### The decoder, one equation per operation code -/

theorem decode_eq_nop {r : ReqWord} (hop : opField r = 0b000#3) : decode r = .nop := by
  simp [decode, hop]

theorem decode_eq_edge {r : ReqWord} (hop : opField r = 0b001#3) :
    decode r = .edge (levelField r) (ticksField r) := by
  simp [decode, hop]

/-- The code in `req[1:0]` chooses the event (R64). -/
theorem decode_eq_event {r : ReqWord} (hop : opField r = 0b010#3) {ev : Event}
    (hev : evField r = ev.code) : decode r = ev.instr := by
  simp [decode, hop, hev]

theorem decode_eq_arm {r : ReqWord} (hop : opField r = 0b011#3) : decode r = .arm := by
  simp [decode, hop]

theorem decode_eq_take {r : ReqWord} (hop : opField r = 0b100#3) : decode r = .take := by
  simp [decode, hop]

theorem decode_eq_xcmd {r : ReqWord} (hop : opField r = 0b101#3) : decode r = .xcmd (wField r) := by
  simp [decode, hop]

theorem decode_eq_xtog {r : ReqWord} (hop : opField r = 0b110#3) : decode r = .xtog (wField r) := by
  simp [decode, hop]

theorem decode_eq_xaddr {r : ReqWord} (hop : opField r = 0b111#3) : decode r = .xaddr (wField r) := by
  simp [decode, hop]

/-- Settles O1: the decoder's equation for each operation code, and for code 2 for each of the four events. -/
theorem requestFieldsDecode : Obligations.RequestFieldsDecode := fun _ =>
  ⟨decode_eq_nop, decode_eq_edge,
    fun hop => ⟨decode_eq_event (ev := .ss) hop, decode_eq_event (ev := .sp) hop,
      decode_eq_event (ev := .ls) hop, decode_eq_event (ev := .lp) hop⟩,
    decode_eq_arm, decode_eq_take, decode_eq_xcmd, decode_eq_xtog, decode_eq_xaddr⟩

namespace Machine

/-! ### The numbers of the states and of the events -/

/-- Every state is read back from its number (R68). -/
@[simp] theorem Ctrl.ofCode?_code (c : Ctrl) : Ctrl.ofCode? c.code = some c := by
  cases c with
  | table t => cases t <;> rfl
  | begin_ | end_ => rfl

/-- A number that names no state is the number of none (R72). -/
theorem Ctrl.code_ne_of_ofCode?_none {n : BitVec 3} (h : Ctrl.ofCode? n = none) (c : Ctrl) :
    c.code ≠ n := by
  rintro rfl
  simp at h

/-- An event's code is its `long` and `pulse` bits side by side (R69). -/
theorem code_eventOf (long pulse : Bool) :
    (eventOf long pulse).code = BitVec.ofBool long ++ BitVec.ofBool pulse := by
  cases long <;> cases pulse <;> rfl

/-- Settles O5: the numbers by evaluation; 6 and 7 are held by no state since they are read back as none. -/
theorem stateAndEventNumbers : Obligations.StateAndEventNumbers := by
  have six : Ctrl.ofCode? 6#3 = none := rfl
  have seven : Ctrl.ofCode? 7#3 = none := rfl
  exact ⟨rfl, rfl, rfl, rfl, rfl, rfl,
    fun c => ⟨c.code_ne_of_ofCode?_none six, c.code_ne_of_ofCode?_none seven, c.ofCode?_code⟩,
    six, seven, rfl, rfl, rfl, rfl, code_eventOf, ofCode_code⟩

/-! ### The cycle -/

theorem runCycle_of_request {c : Cycle} (s : State) (hrst : c.rst = false) (hv : c.reqValid = true) :
    runCycle c s = exec (decode c.req) s := by
  simp [runCycle, hrst, hv]

theorem runCycle_of_idle {c : Cycle} (s : State) (hrst : c.rst = false) (hv : c.reqValid = false) :
    runCycle c s = .next (respond noRsp s) := by
  simp [runCycle, hrst, hv]

/-- Settles O8: the step is the presented cycle, which is of one of three kinds. -/
theorem cycleResetsRunsOrIdles : Obligations.CycleResetsRunsOrIdles := by
  intro s c rest henv
  refine ⟨step_of_rst henv, ?request, ?idle⟩ <;> rw [step_cons henv]
  case request => exact runCycle_of_request _
  case idle => exact runCycle_of_idle _

/-! ### The response of each operation -/

@[simp] theorem tableEvent_rsp (t : TableState) (ev : Event) (s : State) :
    (tableEvent t ev s).out.rsp = noRsp := by
  obtain ⟨-, h⟩ | ⟨-, -, -, h⟩ | ⟨-, -, -, h⟩ | ⟨-, -, -, h⟩ := tableEvent_cases t ev s <;> simp [h]

/-- An event responds nothing, whether it is masked, delivered or raises an error (R66). -/
theorem onEvent_rsp {ev : Event} {s t : State} (h : onEvent ev s = .next t) : t.out.rsp = noRsp := by
  obtain ⟨-, rfl⟩ | ⟨-, -, rfl⟩ | ⟨_, -, -, rfl⟩ := onEvent_next h <;> simp

theorem eventIn_of_isEventOp {i : Instr} (s : State) (h : isEventOp i = true) :
    ∃ ev, eventIn i s = some ev := by
  cases i with
  | edge | evSS | evSP | evLS | evLP => exact ⟨_, rfl⟩
  | nop | arm | take | xcmd _ | xtog _ | xaddr _ => cases h

theorem exec_rsp_of_isEventOp {i : Instr} {s t : State} (hi : isEventOp i = true)
    (h : exec i s = .next t) : t.out.rsp = noRsp := by
  obtain ⟨ev, hev⟩ := eventIn_of_isEventOp s hi
  exact onEvent_rsp ((exec_of_eventIn hev).symm.trans h)

/-! ### The response word -/

/-- `rsp[16]` is the flag `some` (R66). -/
@[simp] theorem someRsp_getLsbD_16 (v : HalfWord) : (someRsp v).getLsbD 16 = true := by
  rw [someRsp, BitVec.getLsbD_append]
  rfl

/-- `rsp[15:0]` is the value (R66). -/
@[simp] theorem someRsp_truncate (v : HalfWord) : (someRsp v).truncate 16 = v := by
  apply BitVec.eq_of_getLsbD_eq
  intro i hi
  rw [BitVec.truncate_eq_setWidth, BitVec.getLsbD_setWidth, someRsp, BitVec.getLsbD_append]
  simp [hi]

theorem takeRsp_getLsbD_16 (s : State) : (takeRsp s).getLsbD 16 = s.avail := by
  cases h : s.avail with
  | false => rw [takeRsp_of_not_avail h]; rfl
  | true => rw [takeRsp_of_avail h, someRsp_getLsbD_16]

theorem takeRsp_truncate (s : State) :
    (takeRsp s).truncate 16 = if s.avail then s.word.zeroExtend 16 else 0#16 := by
  cases h : s.avail with
  | false => rw [takeRsp_of_not_avail h]; rfl
  | true => rw [takeRsp_of_avail h, someRsp_truncate]; rfl

/-! ### The helpers' masks select bit fields -/

/-- Shifting right by `k` and masking with `n` ones gives the `n` bits from bit `k` on. -/
theorem ushiftRight_and_mask (w : HalfWord) (k n : Nat) :
    (w >>> k) &&& BitVec.ofNat 16 (2 ^ n - 1) = (w.extractLsb' k n).zeroExtend 16 := by
  apply BitVec.eq_of_getLsbD_eq
  intro i hi
  rw [BitVec.getLsbD_and, BitVec.getLsbD_ofNat]
  simp [Nat.testBit_two_pow_sub_one, hi, Bool.and_comm]

theorem commandBits_eq_extractLsb (w : HalfWord) : commandBits w = (w.extractLsb' 0 6).zeroExtend 16 :=
  ushiftRight_and_mask w 0 6

theorem toggleBit_eq_extractLsb (w : HalfWord) : toggleBit w = (w.extractLsb' 11 1).zeroExtend 16 :=
  ushiftRight_and_mask w 11 1

theorem addressBits_eq_extractLsb (w : HalfWord) : addressBits w = (w.extractLsb' 6 5).zeroExtend 16 :=
  ushiftRight_and_mask w 6 5

/-- Settles O47: an event responds nothing, and every other operation by its equation. -/
theorem responseWords : Obligations.ResponseWords := by
  intro i s t h
  refine ⟨?quiet, ?take, ?xcmd, ?xtog, ?xaddr⟩
  case quiet =>
    rintro (hev | rfl | rfl)
    · exact exec_rsp_of_isEventOp hev h
    · cases h; rfl
    · cases h; rfl
  case take =>
    rintro rfl
    cases h
    exact ⟨takeRsp_getLsbD_16 s, takeRsp_truncate s⟩
  case xcmd =>
    rintro w rfl
    cases h
    exact congrArg someRsp (commandBits_eq_extractLsb w)
  case xtog =>
    rintro w rfl
    cases h
    exact congrArg someRsp (toggleBit_eq_extractLsb w)
  case xaddr =>
    rintro w rfl
    cases h
    exact congrArg someRsp (addressBits_eq_extractLsb w)

end Machine

end Sys2Proof
end

section
/-!
PROOFS, spec/40_edge_classifier.md. The window of the classifier (R82, R83), the masked event (R86, R91), and
`tick_clr`, which says whether an event was delivered (R84, R100).
-/

namespace Sys2Proof.Machine

/-! ### The classifier -/

theorem isLong_eq_decide (low high ticks : Ticks) :
    isLong low high ticks = decide (low.toNat < ticks.toNat ∧ ticks.toNat < high.toNat) :=
  (Bool.decide_and _ _).symm

theorem isLong_eq_false_iff (low high ticks : Ticks) :
    isLong low high ticks = false ↔ ¬(low.toNat < ticks.toNat ∧ ticks.toNat < high.toNat) := by
  rw [← isLong_iff, Bool.not_eq_true]

/-- The window is open below (R82). -/
@[simp] theorem isLong_lowBound (low high : Ticks) : isLong low high low = false :=
  (isLong_eq_false_iff low high low).2 fun h => Nat.lt_irrefl _ h.1

/-- The window is open above (R82). -/
@[simp] theorem isLong_highBound (low high : Ticks) : isLong low high high = false :=
  (isLong_eq_false_iff low high high).2 fun h => Nat.lt_irrefl _ h.2

theorem classify_short_mem {low high ticks : Ticks} (level : Bool) (h : isLong low high ticks = false) :
    classify low high level ticks ∈ [Event.ss, .sp] := by
  rw [classify_of_short level h]
  cases level <;> simp

/-- Settles O28: the classifier's law on either side of the window, the two bounds being outside it, and the
code of an event as its two bits. -/
theorem classifierWindow : Obligations.ClassifierWindow := by
  intro low high ticks level
  refine ⟨fun inside => ?long, fun outside => ?short, classify_short_mem level (isLong_lowBound low high),
    classify_short_mem level (isLong_highBound low high), ?code⟩
  case long =>
    have hlong := (isLong_iff low high ticks).2 inside
    exact ⟨classify_of_long false hlong, classify_of_long true hlong⟩
  case short =>
    have hshort := (isLong_eq_false_iff low high ticks).2 outside
    exact ⟨classify_of_short false hshort, classify_of_short true hshort⟩
  case code =>
    rw [← isLong_eq_decide]
    exact code_eventOf _ level

/-! ### The masked event -/

theorem exec_masked {i : Instr} {s : State} (hi : isEventOp i = true) (he : s.evtEn = false) :
    exec i s = .next (respond noRsp s) := by
  obtain ⟨ev, hev⟩ := eventIn_of_isEventOp s hi
  rw [exec_of_eventIn hev, onEvent_masked ev he]

/-- END is masked, by R29 item 3. -/
theorem evtEn_of_end {s : State} (hinv : s.Inv) (hst : s.st = .end_) : s.evtEn = false := by
  obtain ⟨-, ⟨-, hend⟩, -⟩ := hinv
  obtain ⟨-, -, hmask, -⟩ := hend hst
  exact hmask

/-- Settles O31: a masked event only responds, and END and the reset state are masked. -/
theorem maskedEventChangesNothing : Obligations.MaskedEventChangesNothing :=
  ⟨fun _ _ => exec_masked, fun _ => evtEn_of_end, resetWith_evtEn⟩

/-! ### `tick_clr` -/

/-- Both protocol errors, completion and the plain transition restart the elapsed-time counter (R84). -/
@[simp] theorem tableEvent_tickClr (t : TableState) (ev : Event) (s : State) :
    (tableEvent t ev s).out.tickClr = true := by
  obtain ⟨-, h⟩ | ⟨-, -, -, h⟩ | ⟨-, -, -, h⟩ | ⟨-, -, -, h⟩ := tableEvent_cases t ev s <;> simp [h]

/-- `on_event` restarts the counter exactly when events were enabled at its start (R100). -/
theorem onEvent_tickClr {ev : Event} {s t : State} (h : onEvent ev s = .next t) :
    t.out.tickClr = s.evtEn := by
  obtain ⟨he, rfl⟩ | ⟨he, -, rfl⟩ | ⟨_, he, -, rfl⟩ := onEvent_next h <;> simp [he]

theorem isEventOp_of_eventIn {i : Instr} {s : State} {ev : Event} (h : eventIn i s = some ev) :
    isEventOp i = true := by
  cases i with
  | edge | evSS | evSP | evLS | evLP => rfl
  | nop | arm | take | xcmd _ | xtog _ | xaddr _ => cases h

/-- Settles O46: an event's `tick_clr` is `EVT_EN` at its start; ARM and the operations that only respond
drive 0. -/
theorem tickClearOnDeliveredEvents : Obligations.TickClearOnDeliveredEvents := by
  intro i s t h
  obtain ⟨ev, hev, hon⟩ | ⟨rfl, rfl⟩ | ⟨hi, -, rsp, rfl⟩ := exec_next h
  · simp [onEvent_tickClr hon, isEventOp_of_eventIn hev]
  · simp [isEventOp]
  · simp [hi]

end Sys2Proof.Machine
end

section
/-!
PROOFS, spec/41_decoder_fsm.md. The general case of `on_event` by the four ends of R160, one equation each,
then where a delivered event leaves STATE and what decides a fourteenth bit 1 (R99).
-/

namespace Sys2Proof.Machine

/-! ### The general case, by its checks in order -/

section
variable {t : TableState} {ev : Event} {s : State}

theorem tableEvent_of_self (hself : transition t ev = t) : tableEvent t ev s = raiseError .self s := by
  simp [tableEvent, hself]

theorem tableEvent_of_overrun (hdef : transition t ev ≠ t) (hemit : emits (transition t ev) = true)
    (hcnt : s.cnt = 0) : tableEvent t ev s = raiseError .overrun s := by
  simp [tableEvent, hdef, hemit, hcnt]

theorem tableEvent_of_completes (hdef : transition t ev ≠ t)
    (hroom : ¬(emits (transition t ev) = true ∧ s.cnt = 0))
    (hdone : completes (transition t ev) (emittedCnt (transition t ev) s.cnt s.acc) = true) :
    tableEvent t ev s = complete (emittedCnt (transition t ev) s.cnt s.acc)
      (emittedAcc (transition t ev) s.cnt s.acc) s := by
  simp [tableEvent, hdef, hroom, hdone]

theorem tableEvent_of_not_completes (hdef : transition t ev ≠ t)
    (hroom : ¬(emits (transition t ev) = true ∧ s.cnt = 0))
    (hmore : completes (transition t ev) (emittedCnt (transition t ev) s.cnt s.acc) = false) :
    tableEvent t ev s = advance (transition t ev) (emittedCnt (transition t ev) s.cnt s.acc)
      (emittedAcc (transition t ev) s.cnt s.acc) s := by
  simp [tableEvent, hdef, hroom, hmore]

end

/-- A delivered event in a table state is the general case (R90). -/
theorem exec_table {i : Instr} {s : State} {t : TableState} {ev : Event} (hev : eventIn i s = some ev)
    (he : s.evtEn = true) (hs : s.st = .table t) : exec i s = .next (tableEvent t ev s) := by
  rw [exec_of_eventIn hev, onEvent_table ev he hs]

/-! ### The plain transition -/

/-- Of the four ends only the plain transition raises no error and leaves END unreached. -/
theorem tableEvent_st_of_plain {t : TableState} {ev : Event} {s : State}
    (herr : (tableEvent t ev s).out.err = none) (hend : (tableEvent t ev s).st ≠ .end_) :
    (tableEvent t ev s).st = .table (transition t ev) := by
  obtain ⟨-, h⟩ | ⟨-, -, -, h⟩ | ⟨-, -, -, h⟩ | ⟨-, -, -, h⟩ := tableEvent_cases t ev s
  · simp [h] at herr
  · simp [h] at herr
  · simp [h] at hend
  · simp [h]

/-! ### The fourteenth bit -/

/-- MID1 does not accept, so a fourteenth bit 1 leaves the word unlatched with `CNT = 0` (R99). -/
theorem tableEvent_mid1_of_cnt_one {t : TableState} {ev : Event} {s : State}
    (hns : transition t ev = .mid1) (hdef : t ≠ .mid1) (hcnt : s.cnt = 1) :
    tableEvent t ev s = advance .mid1 0 (setBit s.acc 0) s := by
  have hzero : decrement s.cnt s.acc = 0 := Fin.ext (by simp [decrement_val, hcnt])
  rw [tableEvent_of_not_completes, hns, emittedCnt_of_emits _ _ rfl, emittedAcc_mid1, hzero]
  · exact hns ▸ hdef.symm
  · simp [hcnt]
  · simp [hns, completes, accepting]

theorem exec_mid1_of_cnt_one {i : Instr} {s s' : State} {t : TableState} {ev : Event}
    (hev : eventIn i s = some ev) (he : s.evtEn = true) (hs : s.st = .table t)
    (hns : transition t ev = .mid1) (hdef : t ≠ .mid1) (hcnt : s.cnt = 1) (h : exec i s = .next s') :
    s' = advance .mid1 0 (setBit s.acc 0) s := by
  rw [exec_table hev he hs, tableEvent_mid1_of_cnt_one hns hdef hcnt] at h
  exact (Host.Outcome.next.inj h).symm

/-- A short pulse adds no bit, so in MID1 with `CNT = 0` it completes the word as it stands (R99). -/
theorem tableEvent_mid1_sp_of_cnt_zero {s : State} (hcnt : s.cnt = 0) :
    tableEvent .mid1 .sp s = complete 0 s.acc s := by
  have hkeep : emittedCnt .start1 s.cnt s.acc = 0 := (emittedCnt_of_not_emits _ _ rfl).trans hcnt
  have hsame : emittedAcc .start1 s.cnt s.acc = s.acc := emittedAcc_of_ne _ _ nofun
  calc tableEvent .mid1 .sp s
      = complete (emittedCnt .start1 s.cnt s.acc) (emittedAcc .start1 s.cnt s.acc) s :=
        tableEvent_of_completes (t := .mid1) (ev := .sp) nofun (fun h => Bool.noConfusion h.1)
          ((completes_iff _ _).2 ⟨hkeep, .inl rfl⟩)
    _ = complete 0 s.acc s := by rw [hkeep, hsame]

/-- Settles O40: the plain transition among the four ends, the fourteenth bit 1, and the event after it by
the four events. -/
theorem fourteenthBitOneWaits : Obligations.FourteenthBitOneWaits := by
  refine ⟨?plain, ?waits, ?decides⟩
  case plain =>
    intro i s t a ev hev he hs hexec herr hend
    obtain rfl := Host.Outcome.next.inj ((exec_table hev he hs).symm.trans hexec)
    exact tableEvent_st_of_plain herr hend
  case waits =>
    rintro i s t he hcnt (⟨hs, hev⟩ | ⟨hs, hev⟩) hexec
    · obtain rfl := exec_mid1_of_cnt_one hev he hs rfl nofun hcnt hexec
      exact ⟨rfl, rfl, rfl⟩
    · obtain rfl := exec_mid1_of_cnt_one hev he hs rfl nofun hcnt hexec
      exact ⟨rfl, rfl, rfl⟩
  case decides =>
    intro i s ev he hcnt hs hev
    refine ⟨_, exec_table hev he hs, ?_⟩
    cases ev with
    | sp => simp [tableEvent_mid1_sp_of_cnt_zero hcnt]
    | lp => simp [tableEvent_of_overrun (t := .mid1) (ev := .lp) nofun rfl hcnt]
    | ss => simp [tableEvent_of_self (t := .mid1) (ev := .ss) rfl]
    | ls => simp [tableEvent_of_self (t := .mid1) (ev := .ls) rfl]

end Sys2Proof.Machine
end

section
/-!
PROOFS, spec/42_command_latch.md. NOP and the idle cycle (R133), ARM (R130), and TAKE, whose response is
read off the latch and left unchanged by the reading (R131).
-/

namespace Sys2Proof.Machine

/-! ### NOP and ARM -/

/-- Settles O18: NOP's word, its decoder equation and its equation; the idle cycle only responds, as NOP
does. -/
theorem nopChangesNoRegister : Obligations.NopChangesNoRegister := by
  refine ⟨rfl, decode_eq_nop rfl, exec_nop, ?idle⟩
  intro s req rest henv
  rw [step_cons henv, runCycle_of_idle _ rfl rfl, exec_nop]

/-- Settles O19: ARM's word, its decoder equation, and its equation, which has no case on the state. -/
theorem armGivesTheArmedState : Obligations.ArmGivesTheArmedState :=
  ⟨rfl, decode_eq_arm rfl, exec_arm⟩

/-! ### TAKE -/

/-- The response "some" is bit 16 beside the value (R66). -/
theorem someRsp_eq_or (v : HalfWord) : someRsp v = 0x10000#17 ||| v.zeroExtend 17 :=
  calc someRsp v
      = (1#1 ++ v).setWidth 17 := (BitVec.setWidth_eq _).symm
    _ = (1#1).setWidth 17 <<< 16 ||| v.setWidth 17 := BitVec.setWidth_append_eq_shiftLeft_setWidth_or
    _ = 0x10000#17 ||| v.zeroExtend 17 := rfl

/-- Widening the latch word first to the value and then to the response is widening it once (R131). -/
theorem someRsp_zeroExtend (w : FrameWord) :
    someRsp (w.zeroExtend 16) = 0x10000#17 ||| w.zeroExtend 17 := by
  rw [someRsp_eq_or, BitVec.zeroExtend, BitVec.setWidth_setWidth (by decide)]

theorem exec_take_of_avail {s : State} (h : s.avail = true) :
    exec .take s = .next (respond (0x10000#17 ||| s.word.zeroExtend 17) s) := by
  rw [exec_take, takeRsp_of_avail h, someRsp_zeroExtend]

theorem exec_take_of_not_avail {s : State} (h : s.avail = false) :
    exec .take s = .next (respond noRsp s) := by
  rw [exec_take, takeRsp_of_not_avail h]

/-- Only END holds a word, by R29 item 3. -/
theorem not_avail_of_not_end {s : State} (hinv : s.Inv) (hst : s.st ≠ .end_) : s.avail = false := by
  obtain ⟨-, ⟨hiff, -⟩, -⟩ := hinv
  exact Bool.eq_false_iff.2 (mt hiff.2 hst)

/-- A response leaves the latch, so reading it does not change what TAKE answers (R131). -/
@[simp] theorem takeRsp_respond (rsp : RspWord) (s : State) : takeRsp (respond rsp s) = takeRsp s := rfl

/-- Settles O20: TAKE by AVAIL, which is 0 outside END and after reset; a second TAKE reads the same latch. -/
theorem takeReadsTheLatch : Obligations.TakeReadsTheLatch := by
  refine ⟨rfl, decode_eq_take rfl, fun _ => exec_take_of_avail, fun _ => exec_take_of_not_avail,
    fun s hinv hst => exec_take_of_not_avail (not_avail_of_not_end hinv hst),
    exec_take_of_not_avail (resetWith_avail _ _), ?twice⟩
  intro s havail hword
  have hrsp : takeRsp s = 0x13410#17 := by
    rw [takeRsp_of_avail havail, hword]
    rfl
  exact ⟨_, _, exec_take s, hrsp, exec_take _, (takeRsp_respond _ s).trans hrsp⟩

end Sys2Proof.Machine
end

section
/-!
PROOFS, spec/43_field_extraction.md. The helpers XCMD, XTOG and XADDR: the value of an extracted field as
a number, the response that depends on the operand alone (R144), and the source's worked example (R146).
-/

namespace Sys2Proof.Machine

/-! ### The value of an extracted field -/

/-- The `n` bits from bit `k` on, as a number. -/
theorem toNat_zeroExtend_extractLsb {n : Nat} (w : HalfWord) (k : Nat) (hn : n ≤ 16) :
    ((w.extractLsb' k n).zeroExtend 16).toNat = w.toNat / 2 ^ k % 2 ^ n := by
  rw [BitVec.zeroExtend, BitVec.toNat_setWidth_of_le hn, BitVec.extractLsb'_toNat, Nat.shiftRight_eq_div_pow]

theorem commandBits_toNat (w : HalfWord) : (commandBits w).toNat = w.toNat % 64 :=
  calc (commandBits w).toNat
      = w.toNat / 2 ^ 0 % 2 ^ 6 := by
        rw [commandBits_eq_extractLsb, toNat_zeroExtend_extractLsb w 0 (by decide)]
    _ = w.toNat % 64 := by simp

theorem commandBits_toNat_le (w : HalfWord) : (commandBits w).toNat ≤ 63 := by
  rw [commandBits_toNat]
  omega

/-- Bits 15 to 6 of the operand are irrelevant to XCMD (R141). -/
theorem commandBits_congr {w x : HalfWord} (h : w.extractLsb' 0 6 = x.extractLsb' 0 6) :
    commandBits w = commandBits x := by
  rw [commandBits_eq_extractLsb, commandBits_eq_extractLsb, h]

/-- Settles O23: XCMD's equation with the value of the command bits, its decoder equation, and its request
word for the operand of the example. -/
theorem xcmdGivesTheCommandBits : Obligations.XcmdGivesTheCommandBits := by
  refine ⟨?value, ?irrelevant, fun _ => decode_eq_xcmd, rfl, exec_xcmd 0x3410#16⟩
  case value =>
    intro w s
    exact ⟨commandBits w, exec_xcmd w s, rfl, commandBits_toNat w, commandBits_toNat_le w⟩
  case irrelevant =>
    intro w x s h
    rw [exec_xcmd, exec_xcmd, commandBits_congr h]

/-! ### The helpers in every state -/

/-- Settles O26: each helper's response is named before the state, from its operand alone. -/
theorem helpersArePure : Obligations.HelpersArePure := by
  intro w i hi
  obtain rfl | rfl | rfl : i = .xcmd w ∨ i = .xtog w ∨ i = .xaddr w := by simpa using hi
  · exact ⟨someRsp (commandBits w), exec_xcmd w⟩
  · exact ⟨someRsp (toggleBit w), exec_xtog w⟩
  · exact ⟨someRsp (addressBits w), exec_xaddr w⟩

/-- Settles O27: the three helpers' equations at the example's word. -/
theorem fieldExample : Obligations.FieldExample := fun s =>
  ⟨exec_xcmd _ s, exec_xaddr _ s, exec_xtog _ s, rfl, rfl⟩

end Sys2Proof.Machine
end

section
/-!
PROOFS, spec/60_exceptions.md. What raises a protocol error and what it leaves, said once for every
operation, then the undefined transition (R151) and the error as an ARM (R153).
-/

namespace Sys2Proof.Machine

/-! ### Where a protocol error comes from -/

/-- Of the four ends of the general case two raise an error, each by its own check (R151, R152, R160). -/
theorem tableEvent_err {t : TableState} {ev : Event} {s : State} {k : ProtocolError}
    (herr : (tableEvent t ev s).out.err = some k) :
    tableEvent t ev s = raiseError k s ∧
      (k = .self ∧ transition t ev = t ∨
        k = .overrun ∧ transition t ev ≠ t ∧ emits (transition t ev) = true ∧ s.cnt = 0) := by
  obtain ⟨hself, h⟩ | ⟨hdef, hemit, hcnt, h⟩ | ⟨-, -, -, h⟩ | ⟨-, -, -, h⟩ := tableEvent_cases t ev s
  · obtain rfl : ProtocolError.self = k := by simpa [h] using herr
    exact ⟨h, .inl ⟨rfl, hself⟩⟩
  · obtain rfl : ProtocolError.overrun = k := by simpa [h] using herr
    exact ⟨h, .inr ⟨rfl, hdef, hemit, hcnt⟩⟩
  · simp [h] at herr
  · simp [h] at herr

/-- Only an event delivered in a table state raises an error: ARM, the operations that only respond, a
masked event and the first sync bit raise none. -/
theorem exec_err {i : Instr} {s u : State} {k : ProtocolError} (hexec : exec i s = .next u)
    (herr : u.out.err = some k) :
    ∃ t ev, s.evtEn = true ∧ s.st = .table t ∧ eventIn i s = some ev ∧ u = tableEvent t ev s := by
  obtain ⟨ev, hev, hon⟩ | ⟨-, rfl⟩ | ⟨-, -, rsp, rfl⟩ := exec_next hexec
  · obtain ⟨-, rfl⟩ | ⟨-, -, rfl⟩ | ⟨t, he, hs, hu⟩ := onEvent_next hon
    · simp at herr
    · simp at herr
    · exact ⟨t, ev, he, hs, hev, hu⟩
  · simp at herr
  · simp at herr

/-! ### The undefined transition -/

/-- The ten undefined pairs, by the sixteen entries of the Transition Table (R96, R151). -/
theorem transition_eq_self_iff (t : TableState) (ev : Event) : transition t ev = t ↔
    (t, ev) ∈ [(TableState.start1, Event.sp), (.start1, .ls), (.start1, .lp), (.mid1, .ss), (.mid1, .ls),
      (.mid0, .sp), (.mid0, .lp), (.start0, .ss), (.start0, .ls), (.start0, .lp)] := by
  cases t <;> cases ev <;> decide

/-- Settles O41: the table's diagonal, the first check of the general case, and that no other check raises
ERR_SELF. -/
theorem undefinedTransitionRearms : Obligations.UndefinedTransitionRearms := by
  refine ⟨rfl, transition_eq_self_iff, ?raised, ?only⟩
  case raised =>
    intro i s t ev hev he hs hself
    rw [exec_table hev he hs, tableEvent_of_self hself]
    rfl
  case only =>
    intro i s u hexec herr
    obtain ⟨t, ev, he, hs, hev, rfl⟩ := exec_err hexec herr
    obtain ⟨-, ⟨-, hself⟩ | ⟨hkind, -⟩⟩ := tableEvent_err herr
    · exact ⟨t, ev, he, hs, hev, hself⟩
    · cases hkind

/-! ### The error as an ARM -/

/-- Whatever raises it, an error leaves `raiseError` of the state it was raised in: nothing of the event or
the partial word is kept (R153). -/
theorem exec_err_eq_raiseError {i : Instr} {s u : State} {k : ProtocolError} (hexec : exec i s = .next u)
    (herr : u.out.err = some k) : u = raiseError k s := by
  obtain ⟨t, ev, -, -, -, rfl⟩ := exec_err hexec herr
  exact (tableEvent_err herr).1

/-- Settles O43: the error's state written out, and ARM's equation, which differs from it in the outputs
alone. -/
theorem protocolErrorIsAnArm : Obligations.ProtocolErrorIsAnArm := by
  intro i s t k hexec herr
  obtain rfl := exec_err_eq_raiseError hexec herr
  exact ⟨rfl, _, exec_arm s, rfl⟩

end Sys2Proof.Machine
end

section
/-!
PROOFS, spec/10_state.md R29. The invariant of the reachable state: what an emitted bit does to the counter
and the accumulator, that each shared operation keeps the invariant, and what follows for runs and for TAKE.
-/

namespace Sys2Proof.Machine

/-! ### Bit emission -/

/-- A defined transition with room for its bit leaves the counter and the accumulator, or emits a 0, or emits
a 1, by its next state (R95). -/
theorem emitted_cases {ns : TableState} {cnt : Count} (acc : FrameWord)
    (hroom : ¬(emits ns = true ∧ cnt = 0)) :
    ((ns = .start1 ∨ ns = .start0) ∧ emittedCnt ns cnt acc = cnt ∧ emittedAcc ns cnt acc = acc) ∨
    (ns = .mid0 ∧ (emittedCnt ns cnt acc).val + 1 = cnt.val ∧ emittedAcc ns cnt acc = acc) ∨
    (ns = .mid1 ∧ (emittedCnt ns cnt acc).val + 1 = cnt.val ∧
      emittedAcc ns cnt acc = setBit acc (emittedCnt ns cnt acc)) := by
  have hdecr (hemit : emits ns = true) : (emittedCnt ns cnt acc).val + 1 = cnt.val := by
    have hpos : cnt.val ≠ 0 := fun h => hroom ⟨hemit, Fin.ext h⟩
    rw [emittedCnt_of_emits cnt acc hemit, decrement_val acc hpos]
    omega
  cases ns with
  | start1 => exact .inl ⟨.inl rfl, emittedCnt_of_not_emits cnt acc rfl, emittedAcc_of_ne cnt acc nofun⟩
  | start0 => exact .inl ⟨.inr rfl, emittedCnt_of_not_emits cnt acc rfl, emittedAcc_of_ne cnt acc nofun⟩
  | mid0 => exact .inr (.inl ⟨rfl, hdecr rfl, emittedAcc_of_ne cnt acc nofun⟩)
  | mid1 => exact .inr (.inr ⟨rfl, hdecr rfl, rfl⟩)

/-- START1 is entered from MID1 only (R93). -/
theorem eq_of_transition_eq_start1 (t : TableState) (ev : Event) :
    transition t ev = .start1 → t = .start1 ∨ t = .mid1 := by
  cases t <;> cases ev <;> decide

/-- START0 is entered from MID0 only (R93). -/
theorem eq_of_transition_eq_start0 (t : TableState) (ev : Event) :
    transition t ev = .start0 → t = .start0 ∨ t = .mid0 := by
  cases t <;> cases ev <;> decide

/-! ### The invariant, by the control state -/

section
variable {s : State}

/-- In BEGIN the invariant is R29 item 2. -/
theorem inv_of_begin (hst : s.st = .begin_) (hcnt : s.cnt = 14) (hacc : s.acc = 0#14)
    (hword : s.word = 0#14) (havail : s.avail = false) : s.Inv := by
  refine ⟨fun _ => ⟨hcnt, hacc, havail, hword⟩, ?_, fun _ => hword, ?_, fun _ => .inr hst⟩
  · simp [State.EndInv, hst, havail]
  · simp [State.TableInv, hst]

/-- In END the invariant is R29 item 3. -/
theorem inv_of_end (hst : s.st = .end_) (hcnt : s.cnt = 0) (hword : s.word = s.acc)
    (havail : s.avail = true) (hmask : s.evtEn = false) (hlead : s.acc.getLsbD 13 = true) : s.Inv := by
  refine ⟨?_, ⟨by simp [hst, havail], fun _ => ⟨hcnt, hword, hmask, hword ▸ hlead⟩⟩, ?_, ?_, fun _ => .inl hst⟩
  · simp [State.BeginInv, hst]
  · simp [State.LatchInv, havail]
  · simp [State.TableInv, hst]

/-- In a table state the invariant is R29 items 6 to 8, with nothing latched and events delivered. -/
theorem inv_of_table {t : TableState} (hst : s.st = .table t) (hcell : s.CellInv t)
    (hword : s.word = 0#14) (havail : s.avail = false) (hen : s.evtEn = true) : s.Inv := by
  refine ⟨by simp [State.BeginInv, hst], by simp [State.EndInv, hst, havail], fun _ => hword, ?_, by simp [hen]⟩
  intro u _ hu
  obtain rfl : t = u := by simpa [hst] using hu
  exact hcell

theorem cellInv_of_table {t : TableState} (hinv : s.Inv) (hst : s.st = .table t) : s.CellInv t := by
  obtain ⟨-, -, -, htable, -⟩ := hinv
  exact htable t (by cases t <;> simp) hst

theorem begin_fields (hinv : s.Inv) (hst : s.st = .begin_) :
    s.cnt = 14 ∧ s.acc = 0#14 ∧ s.avail = false ∧ s.word = 0#14 := by
  obtain ⟨hbegin, -⟩ := hinv
  exact hbegin hst

theorem end_of_avail (hinv : s.Inv) (havail : s.avail = true) : s.st = .end_ := by
  obtain ⟨-, ⟨hiff, -⟩, -⟩ := hinv
  exact hiff.2 havail

theorem word_lead_of_end (hinv : s.Inv) (hst : s.st = .end_) : s.word.getLsbD 13 = true := by
  obtain ⟨-, ⟨-, hend⟩, -⟩ := hinv
  obtain ⟨-, -, -, hlead⟩ := hend hst
  exact hlead

/-- Outside END nothing is latched, by R29 items 3 and 4. -/
theorem word_of_not_end (hinv : s.Inv) (hst : s.st ≠ .end_) : s.word = 0#14 := by
  have havail := not_avail_of_not_end hinv hst
  obtain ⟨-, -, hlatch, -⟩ := hinv
  exact hlatch havail

end

/-- A response writes no register, so it keeps the invariant. -/
theorem inv_respond_iff (rsp : RspWord) (s : State) : (respond rsp s).Inv ↔ s.Inv := Iff.rfl

theorem inv_moveOn_iff (s : State) : (moveOn s).Inv ↔ s.Inv := Iff.rfl

theorem inv_hardReset (s : State) : (hardReset s).Inv := inv_of_begin rfl rfl rfl rfl rfl

theorem inv_doArm (s : State) : (doArm s).Inv := inv_of_begin rfl rfl rfl rfl rfl

theorem inv_raiseError (k : ProtocolError) (s : State) : (raiseError k s).Inv :=
  inv_of_begin rfl rfl rfl rfl rfl

/-- Settles O13: the reset state is BEGIN with its item of the invariant, whatever the bounds. -/
theorem resetMeetsTheInvariant : Obligations.ResetMeetsTheInvariant :=
  ⟨inv_of_begin rfl rfl rfl rfl rfl, fun _ _ => inv_of_begin rfl rfl rfl rfl rfl⟩

/-! ### The first sync bit -/

theorem decrement_eq {cnt c : Count} (acc : FrameWord) (h : cnt.val = c.val + 1) : decrement cnt acc = c := by
  apply Fin.ext
  rw [decrement_val acc (by omega), h, Nat.add_sub_cancel]

theorem firstSync_of_cnt {s : State} {c : Count} (hcnt : s.cnt.val = c.val + 1) :
    firstSync s = advance .mid1 c (setBit s.acc c) s := by
  rw [firstSync, decrement_eq s.acc hcnt]
  rfl

/-- From the armed state the first edge sets bit 13 (R90). -/
theorem firstSync_of_armed {s : State} (hcnt : s.cnt = 14) (hacc : s.acc = 0#14) :
    firstSync s = advance .mid1 13 0x2000#14 s := by
  rw [firstSync_of_cnt (c := 13) (by rw [hcnt]; rfl), hacc]
  rfl

theorem inv_firstSync {s : State} (hinv : s.Inv) (hst : s.st = .begin_) (hen : s.evtEn = true) :
    (firstSync s).Inv := by
  obtain ⟨hcnt, hacc, havail, hword⟩ := begin_fields hinv hst
  rw [firstSync_of_armed hcnt hacc]
  refine inv_of_table rfl ?_ hword havail hen
  rw [State.CellInv, advance_cnt, advance_acc]
  decide

/-! ### The general case -/

/-- A defined transition with room for its bit that does not complete leaves a cell as R29 items 6 to 8 say. -/
theorem cellInv_advance {t ns : TableState} {ev : Event} {s : State} (hcell : s.CellInv t)
    (hns : transition t ev = ns) (hdef : ns ≠ t) (hroom : ¬(emits ns = true ∧ s.cnt = 0))
    (hmore : completes ns (emittedCnt ns s.cnt s.acc) = false) :
    (advance ns (emittedCnt ns s.cnt s.acc) (emittedAcc ns s.cnt s.acc) s).CellInv ns := by
  obtain ⟨hle, hlead, hbelow, hlast, hzero⟩ := hcell
  have hpending : emittedCnt ns s.cnt s.acc = 0 → ¬(ns = .start1 ∨ ns = .mid0) := fun h hacc =>
    Bool.eq_false_iff.1 hmore ((completes_iff _ _).2 ⟨h, hacc⟩)
  obtain ⟨hstart, hcnt, hacc⟩ | ⟨rfl, hcnt, hacc⟩ | ⟨rfl, hcnt, hacc⟩ := emitted_cases s.acc hroom
  · rw [hcnt] at hpending
    rw [State.CellInv, advance_cnt, advance_acc, hcnt, hacc]
    obtain rfl | rfl := hstart
    · obtain rfl := (eq_of_transition_eq_start1 t ev hns).resolve_left hdef.symm
      exact ⟨hle, hlead, hbelow, hlast, fun h => absurd (.inl rfl) (hpending h)⟩
    · obtain rfl := (eq_of_transition_eq_start0 t ev hns).resolve_left hdef.symm
      exact ⟨hle, hlead, hbelow, hlast, fun h => TableState.noConfusion (hzero h)⟩
  · rw [State.CellInv, advance_cnt, advance_acc, hacc]
    refine ⟨by omega, hlead, fun k hk => hbelow k (by omega), ?_, fun h => absurd (.inr rfl) (hpending h)⟩
    exact hbelow _ (by omega)
  · rw [State.CellInv, advance_cnt, advance_acc, hacc]
    refine ⟨by omega, by simp [setBit_getLsbD, hlead], fun k hk => ?_, ?_, fun _ => rfl⟩
    · rw [setBit_getLsbD, hbelow k (by omega)]
      simp [Nat.ne_of_lt hk]
    · have hlt : (emittedCnt .mid1 s.cnt s.acc).val < 14 := by omega
      simp [setBit_getLsbD, hlt]

/-- Completion emits no 1, so the latched word is the accumulator, and its counter is 0 (R98). -/
theorem completes_fields {ns : TableState} {cnt : Count} {acc : FrameWord}
    (hdone : completes ns (emittedCnt ns cnt acc) = true) :
    emittedCnt ns cnt acc = 0 ∧ emittedAcc ns cnt acc = acc := by
  obtain ⟨hcnt, rfl | rfl⟩ := (completes_iff _ _).1 hdone
  · exact ⟨hcnt, emittedAcc_of_ne _ _ nofun⟩
  · exact ⟨hcnt, emittedAcc_of_ne _ _ nofun⟩

theorem inv_tableEvent {t : TableState} (ev : Event) {s : State} (hinv : s.Inv) (hst : s.st = .table t)
    (hen : s.evtEn = true) : (tableEvent t ev s).Inv := by
  have hcell := cellInv_of_table hinv hst
  have hend : s.st ≠ .end_ := by simp [hst]
  have hword := word_of_not_end hinv hend
  have havail := not_avail_of_not_end hinv hend
  obtain ⟨-, h⟩ | ⟨-, -, -, h⟩ | ⟨-, -, hdone, h⟩ | ⟨hdef, hroom, hmore, h⟩ := tableEvent_cases t ev s
  · exact h ▸ inv_raiseError .self s
  · exact h ▸ inv_raiseError .overrun s
  · obtain ⟨hcnt, hacc⟩ := completes_fields hdone
    obtain ⟨-, hlead, -⟩ := hcell
    rw [h, hcnt, hacc]
    exact inv_of_end rfl rfl rfl rfl rfl hlead
  · rw [h]
    exact inv_of_table rfl (cellInv_advance hcell rfl hdef hroom hmore) hword havail hen

/-! ### Every operation and every step -/

theorem onEvent_keeps_inv {ev : Event} {s t : State} (hinv : s.Inv) (h : onEvent ev s = .next t) : t.Inv := by
  obtain ⟨-, rfl⟩ | ⟨hen, hst, rfl⟩ | ⟨_, hen, hst, rfl⟩ := onEvent_next h
  · exact (inv_respond_iff noRsp s).2 hinv
  · exact inv_firstSync hinv hst hen
  · exact inv_tableEvent ev hinv hst hen

theorem exec_keeps_inv {i : Instr} {s t : State} (hinv : s.Inv) (h : exec i s = .next t) : t.Inv := by
  obtain ⟨ev, -, hon⟩ | ⟨-, rfl⟩ | ⟨-, -, rsp, rfl⟩ := exec_next h
  · exact onEvent_keeps_inv hinv hon
  · exact (inv_respond_iff noRsp _).2 (inv_doArm s)
  · exact (inv_respond_iff rsp s).2 hinv

theorem step_keeps_inv {s t : State} (hinv : s.Inv) (h : step s = .next t) : t.Inv := by
  have hmoved := (inv_moveOn_iff s).2 hinv
  obtain ⟨-, rfl⟩ | ⟨-, -, hexec⟩ | ⟨-, -, rfl⟩ := runCycle_next h
  · exact inv_hardReset _
  · exact exec_keeps_inv hmoved hexec
  · exact (inv_respond_iff noRsp _).2 hmoved

/-- Settles O14: reset, an operation and an idle cycle each keep the invariant. -/
theorem everyStepKeepsTheInvariant : Obligations.EveryStepKeepsTheInvariant :=
  fun _ _ => step_keeps_inv

/-! ### Masked in END only -/

theorem onEvent_keeps_armed {ev : Event} {s t : State} (harmed : s.Armed) (h : onEvent ev s = .next t) :
    t.Armed := by
  obtain ⟨-, rfl⟩ | ⟨hen, -, rfl⟩ | ⟨ts, hen, -, rfl⟩ := onEvent_next h
  · exact harmed
  · simp [State.Armed, hen]
  · obtain ⟨-, h⟩ | ⟨-, -, -, h⟩ | ⟨-, -, -, h⟩ | ⟨-, -, -, h⟩ := tableEvent_cases ts ev s <;>
      simp [State.Armed, h, hen]

theorem armed_doArm (s : State) : (doArm s).Armed := by simp [State.Armed]

/-- Settles O15: ARM enables events in BEGIN; of the operations only completion masks them, and it enters END. -/
theorem maskedOnlyInEndAfterArm : Obligations.MaskedOnlyInEndAfterArm := by
  refine ⟨?armed, ?kept⟩
  case armed =>
    intro s t h
    obtain rfl := Host.Outcome.next.inj h
    exact armed_doArm s
  case kept =>
    intro i s t _ harmed h
    obtain ⟨ev, -, hon⟩ | ⟨-, rfl⟩ | ⟨-, -, rsp, rfl⟩ := exec_next h
    · exact onEvent_keeps_armed harmed hon
    · exact armed_doArm s
    · exact harmed

/-! ### No run stops -/

theorem onEvent_of_accepts (ev : Event) {s : State} (h : s.Accepts) : ∃ t, onEvent ev s = .next t := by
  by_cases hen : s.evtEn = true
  · cases hst : s.st with
    | begin_ => exact ⟨_, onEvent_begin ev hen hst⟩
    | table t => exact ⟨_, onEvent_table ev hen hst⟩
    | end_ => exact absurd ⟨hst, hen⟩ h
  · exact ⟨_, onEvent_masked ev (by simpa using hen)⟩

theorem exec_of_accepts (i : Instr) {s : State} (h : s.Accepts) : ∃ t, exec i s = .next t := by
  cases i with
  | edge | evSS | evSP | evLS | evLP =>
    rw [exec_of_eventIn rfl]
    exact onEvent_of_accepts _ h
  | nop | arm | take | xcmd _ | xtog _ | xaddr _ => exact ⟨_, rfl⟩

theorem accepts_of_inv {s : State} (hinv : s.Inv) : s.Accepts := by
  rintro ⟨hst, hen⟩
  simp [evtEn_of_end hinv hst] at hen

/-- Settles O45: the one refusal of `on_event`, and every other state answers. -/
theorem eventInEndIsRefused : Obligations.EventInEndIsRefused := by
  refine ⟨?refused, fun i _ => exec_of_accepts i, fun _ => accepts_of_inv⟩
  intro i s hi hst hen
  obtain ⟨ev, hev⟩ := eventIn_of_isEventOp s hi
  rw [exec_of_eventIn hev, onEvent_end ev hen hst]

/-- A step answers where the registers accept every operation, whatever the environment presents. -/
theorem step_of_accepts {s : State} (h : s.Accepts) : ∃ t, step s = .next t := by
  rw [step]
  cases hrst : (presented s).rst with
  | true => exact ⟨_, runCycle_of_rst _ hrst⟩
  | false =>
    cases hvalid : (presented s).reqValid with
    | true =>
      rw [runCycle_of_request _ hrst hvalid]
      exact exec_of_accepts (s := moveOn s) _ h
    | false => exact ⟨_, runCycle_of_idle _ hrst hvalid⟩

theorem run_succ_of_step {s s' : State} (n : Nat) (h : step s = .next s') :
    Host.Core.run Sys2Proof.core (n + 1) s = Host.Core.run Sys2Proof.core n s' := by
  simp only [Host.Core.run]
  rw [show Sys2Proof.core.step s = .next s' from h]

/-- A run of any length from the invariant answers a state that meets it, whatever is presented. -/
theorem run_of_inv (n : Nat) : ∀ {s : State}, s.Inv →
    ∃ t : State, Host.Core.run Sys2Proof.core n s = .next t ∧ t.Inv := by
  induction n with
  | zero => exact fun {s} hinv => ⟨s, rfl, hinv⟩
  | succ n ih =>
    intro s hinv
    obtain ⟨s', hstep⟩ := step_of_accepts (accepts_of_inv hinv)
    rw [run_succ_of_step n hstep]
    exact ih (step_keeps_inv hinv hstep)

/-- Settles O16, by induction on the length of the run; ARM's equation gives the last clause. -/
theorem runNeverStops : Obligations.RunNeverStops := by
  intro n s hinv
  obtain ⟨t, hrun, hinv'⟩ := run_of_inv n hinv
  exact ⟨t, hrun, hinv', exec_arm t⟩

/-! ### The word TAKE returns -/

/-- Settles O17: a word is available in END only, where R29 item 3 gives its first bit. -/
theorem latchedWordStartsWithOne : Obligations.LatchedWordStartsWithOne := by
  intro i s t hinv h havail
  have hinv' := exec_keeps_inv hinv h
  refine ⟨word_lead_of_end hinv' (end_of_avail hinv' havail), ?_⟩
  rw [exec_take, takeRsp_of_avail havail]
  rfl

end Sys2Proof.Machine
end

section
/-!
PROOFS, spec/30_encoding.md. The encoder inverts the decoder up to the ignored bits (R60 to R71), the packed
table (R70), the trace line of an operation (R75), and the step that runs the presented word (R79).
-/

namespace Sys2Proof

/-! ### Every operation is read back from its word -/

@[simp] theorem decode_encode (i : Instr) : decode (encode i) = i := by
  cases i with
  | nop => exact decode_eq_nop (opField_encodeZ _)
  | edge level ticks => simp [encode, decode_eq_edge]
  | evSS | evSP | evLS | evLP => exact decode_eq_event (opField_encodeV _ _) (evField_encodeV _ _)
  | arm => exact decode_eq_arm (opField_encodeZ _)
  | take => exact decode_eq_take (opField_encodeZ _)
  | xcmd w => simp [encode, decode_eq_xcmd]
  | xtog w => simp [encode, decode_eq_xtog]
  | xaddr w => simp [encode, decode_eq_xaddr]

/-! ### Every word is written back from its fields, by format -/

section
variable (r : ReqWord)

theorem encodeZ_fields : encodeZ (opField r) = r &&& 0xE00000000#36 := by
  apply BitVec.eq_of_getLsbD_eq
  intro i hi
  rw [getLsbD_encodeZ, getLsbD_opField, BitVec.getLsbD_and]
  interval_cases i <;> simp

theorem encodeG_fields : encodeG (opField r) (levelField r) (ticksField r) = r &&& 0xFFFFFFFFF#36 := by
  apply BitVec.eq_of_getLsbD_eq
  intro i hi
  rw [getLsbD_encodeG, getLsbD_opField, BitVec.getLsbD_and, levelField, ticksField, BitVec.getLsbD_extractLsb']
  interval_cases i <;> simp

theorem encodeV_fields {ev : Event} (hev : evField r = ev.code) :
    encodeV (opField r) ev = r &&& 0xE00000003#36 := by
  apply BitVec.eq_of_getLsbD_eq
  intro i hi
  rw [getLsbD_encodeV, ← hev, getLsbD_opField, BitVec.getLsbD_and, evField, BitVec.getLsbD_extractLsb']
  interval_cases i <;> simp

theorem encodeW_fields : encodeW (opField r) (wField r) = r &&& 0xE0000FFFF#36 := by
  apply BitVec.eq_of_getLsbD_eq
  intro i hi
  rw [getLsbD_encodeW, getLsbD_opField, BitVec.getLsbD_and, wField, BitVec.getLsbD_extractLsb']
  interval_cases i <;> simp

end

/-- Every 2-bit code is the code of its event (R69). -/
theorem code_ofCode (c : BitVec 2) : (Event.ofCode c).code = c := by
  revert c
  decide

/-- The word of an EVENT operation is its format's word (R64). -/
theorem encode_instr (ev : Event) : encode ev.instr = encodeV 0b010#3 ev := by
  cases ev <;> rfl

/-- The eight operation codes (R61). -/
theorem opField_cases (r : ReqWord) :
    opField r = 0b000#3 ∨ opField r = 0b001#3 ∨ opField r = 0b010#3 ∨ opField r = 0b011#3 ∨
    opField r = 0b100#3 ∨ opField r = 0b101#3 ∨ opField r = 0b110#3 ∨ opField r = 0b111#3 := by
  generalize opField r = op
  revert op
  decide

/-- The word written back from what a request word presents: by operation code, its format's. -/
theorem encode_decode (r : ReqWord) : encode (decode r) = r &&& readBits r := by
  obtain hop | hop | hop | hop | hop | hop | hop | hop := opField_cases r
  · rw [decode_eq_nop hop, encode, ← hop, encodeZ_fields]
    simp [readBits, hop]
  · rw [decode_eq_edge hop, encode, ← hop, encodeG_fields]
    simp [readBits, hop]
  · have hev := (code_ofCode (evField r)).symm
    rw [decode_eq_event hop hev, encode_instr, ← hop, encodeV_fields r hev]
    simp [readBits, hop]
  · rw [decode_eq_arm hop, encode, ← hop, encodeZ_fields]
    simp [readBits, hop]
  · rw [decode_eq_take hop, encode, ← hop, encodeZ_fields]
    simp [readBits, hop]
  · rw [decode_eq_xcmd hop, encode, ← hop, encodeW_fields]
    simp [readBits, hop]
  · rw [decode_eq_xtog hop, encode, ← hop, encodeW_fields]
    simp [readBits, hop]
  · rw [decode_eq_xaddr hop, encode, ← hop, encodeW_fields]
    simp [readBits, hop]

/-- Settles O2: the fields of an encoded word, and the word of the fields. -/
theorem decodeAndEncodeAgree : Obligations.DecodeAndEncodeAgree :=
  ⟨fun i _ => decode_encode i, encode_decode⟩

/-- Settles O3: the decoder's equation for each printed word's operation code. -/
theorem specRequestWordsDecode : Obligations.SpecRequestWordsDecode :=
  ⟨decode_eq_nop rfl, decode_eq_edge rfl, decode_eq_event (ev := .ss) rfl rfl,
    decode_eq_event (ev := .sp) rfl rfl, decode_eq_event (ev := .ls) rfl rfl,
    decode_eq_event (ev := .lp) rfl rfl, decode_eq_arm rfl, decode_eq_take rfl, decode_eq_xcmd rfl,
    decode_eq_xtog rfl, decode_eq_xaddr rfl⟩

/-! ### Numbers as request words -/

theorem decodeNumber_of_lt {n : Nat} (h : n < 2 ^ 36) :
    decodeNumber n = .ok (decode (BitVec.ofNat 36 n)) := by
  rw [decodeNumber, isRequestWord, decide_eq_true h]
  rfl

theorem decodeNumber_of_ge {n : Nat} (h : 2 ^ 36 ≤ n) : decodeNumber n = .error .notARequestWord := by
  rw [decodeNumber, isRequestWord, decide_eq_false (Nat.not_lt.2 h)]
  rfl

/-- Settles O4: the one check of the number decoder. -/
theorem onlyTooWideNumbersRejected : Obligations.OnlyTooWideNumbersRejected :=
  fun _ => ⟨decodeNumber_of_lt, decodeNumber_of_ge⟩

/-- A request word taken as a number of 36 bits is itself (R60). -/
theorem decodeTableWord_toNat (r : ReqWord) : decodeTableWord 36 r.toNat = some (decode r) := by
  rw [decodeTableWord, Nat.mod_eq_of_lt r.isLt, decodeNumber_of_lt r.isLt, BitVec.ofNat_toNat,
    BitVec.setWidth_eq]

/-! ### The line of an operation -/

/-- Every operand fits its field by its type. -/
theorem wellFormed_of_instr (i : Instr) : i.wellFormed = true := by
  cases i with
  | nop => exact Laws.TableRow.nop.1
  | edge level ticks => exact (Laws.TableRow.edge level ticks).1
  | evSS => exact Laws.TableRow.evSS.1
  | evSP => exact Laws.TableRow.evSP.1
  | evLS => exact Laws.TableRow.evLS.1
  | evLP => exact Laws.TableRow.evLP.1
  | arm => exact Laws.TableRow.arm.1
  | take => exact Laws.TableRow.take.1
  | xcmd w => exact (Laws.TableRow.xcmd w).1
  | xtog w => exact (Laws.TableRow.xtog w).1
  | xaddr w => exact (Laws.TableRow.xaddr w).1

namespace Machine

theorem lineOps_line (i : Instr) : lineOps i.line = some [i] := by
  have hwf : i.line.wellFormed = true := wellFormed_of_instr i
  rw [lineOps, if_pos hwf]
  cases i with
  | edge level ticks => cases level <;> simp [Instr.line]
  | xcmd | xtog | xaddr => simp [Instr.line]
  | nop | evSS | evSP | evLS | evLP | arm | take => rfl

/-- Settles O7: every operation's line fits its fields, and its numbers are read back. -/
theorem traceLineStandsForItsOperation : Obligations.TraceLineStandsForItsOperation :=
  fun i => ⟨wellFormed_of_instr i, lineOps_line i⟩

/-! ### The packed table -/

/-- The sixteen packed entries, by the four bytes (R70, R93). -/
theorem packedTransition_eq (t : TableState) (ev : Event) : packedTransition t ev = transition t ev := by
  cases t <;> cases ev <;> rfl

/-- The six defined pairs, by the sixteen entries of the table (R96). -/
theorem transition_ne_self_iff (t : TableState) (ev : Event) : transition t ev ≠ t ↔
    (t, ev) ∈ [(TableState.start1, Event.ss), (.mid1, .sp), (.mid1, .lp), (.mid0, .ss), (.mid0, .ls),
      (.start0, .sp)] := by
  cases t <;> cases ev <;> decide

/-- Settles O6: both tables by their sixteen entries. -/
theorem packedTableIsTheTable : Obligations.PackedTableIsTheTable :=
  ⟨packedTransition_eq, transition_ne_self_iff⟩

/-! ### The presented word -/

/-- A presented request word runs the operation it was encoded from (R79). -/
theorem step_of_request {s : State} (i : Instr) {rest : List Cycle}
    (henv : s.env = Cycle.request (encode i) :: rest) : step s = exec i { s with env := rest } := by
  rw [step_cons henv, runCycle_of_request _ rfl rfl]
  exact congrArg (exec · _) (decode_encode i)

theorem withFetchWord_env (s : State) (r : ReqWord) :
    (s.withFetchWord 36 r.toNat).env = Cycle.request r :: s.env.tail := by
  rw [State.withFetchWord, presentWord_env, Nat.mod_eq_of_lt r.isLt, BitVec.ofNat_toNat, BitVec.setWidth_eq]

/-- Settles O10: the word read as a number of the table, and the cycle that presents it. -/
theorem stepRunsThePresentedOperation : Obligations.StepRunsThePresentedOperation := by
  intro i s _
  refine ⟨?_, step_of_request i (withFetchWord_env s (encode i))⟩
  rw [decodeTableWord_toNat, decode_encode]

/-- Settles O9: with nothing presented the cycle is idle, and there is nothing to move on to. -/
theorem nothingPresentedChangesNothing : Obligations.NothingPresentedChangesNothing := by
  intro s henv
  have hstay : moveOn s = s := by
    cases s
    cases henv
    rfl
  rw [step, presented_nil henv, runCycle_of_idle _ rfl rfl, hstay]
  rfl

/-! ### The reset state -/

/-- Settles O12: the start-up ARM, the masked event, the empty latch, and helpers that read no state. -/
theorem resetDiffersFromArmInEventEnable : Obligations.ResetDiffersFromArmInEventEnable := by
  intro low high
  refine ⟨rfl, exec_arm_resetWith low high, fun i hi => exec_masked hi rfl,
    exec_take_of_not_avail rfl, fun w u => ?_⟩
  exact ⟨someRsp (commandBits w), someRsp (toggleBit w), someRsp (addressBits w),
    exec_xcmd w _, exec_xcmd w u, exec_xtog w _, exec_xtog w u, exec_xaddr w _, exec_xaddr w u⟩

/-! ### The toggle bit and the address bits -/

theorem toggleBit_toNat (w : HalfWord) : (toggleBit w).toNat = w.toNat / 2 ^ 11 % 2 := by
  rw [toggleBit_eq_extractLsb, toNat_zeroExtend_extractLsb w 11 (by decide), pow_one]

theorem toggleBit_eq_one_iff (w : HalfWord) : toggleBit w = 1#16 ↔ w.getLsbD 11 = true := by
  rw [← BitVec.toNat_inj, toggleBit_toNat, BitVec.getLsbD, Nat.testBit_eq_decide_div_mod_eq, decide_eq_true_iff]
  rfl

/-- Only bit 11 of the operand matters to XTOG (R142). -/
theorem toggleBit_congr {w x : HalfWord} (h : w.getLsbD 11 = x.getLsbD 11) : toggleBit w = toggleBit x := by
  have hbit : w.extractLsb' 11 1 = x.extractLsb' 11 1 := by
    apply BitVec.eq_of_getLsbD_eq
    intro i hi
    obtain rfl : i = 0 := by omega
    simpa [BitVec.getLsbD_extractLsb'] using h
  rw [toggleBit_eq_extractLsb, toggleBit_eq_extractLsb, hbit]

/-- Settles O24: XTOG's equation with the value of the toggle bit. -/
theorem xtogGivesTheToggleBit : Obligations.XtogGivesTheToggleBit := by
  refine ⟨fun w s => ⟨toggleBit w, exec_xtog w s, toggleBit_toNat w, toggleBit_eq_one_iff w⟩, ?irrelevant⟩
  intro w x s h
  rw [exec_xtog, exec_xtog, toggleBit_congr h]

theorem addressBits_toNat (w : HalfWord) : (addressBits w).toNat = w.toNat / 2 ^ 6 % 32 := by
  show _ = w.toNat / 2 ^ 6 % 2 ^ 5
  rw [addressBits_eq_extractLsb, toNat_zeroExtend_extractLsb w 6 (by decide)]

theorem addressBits_toNat_le (w : HalfWord) : (addressBits w).toNat ≤ 31 := by
  rw [addressBits_toNat]
  omega

/-- Settles O25: XADDR's equation with the value of the address bits. -/
theorem xaddrGivesTheAddressBits : Obligations.XaddrGivesTheAddressBits := by
  refine ⟨fun w s => ⟨addressBits w, exec_xaddr w s, addressBits_toNat w, addressBits_toNat_le w⟩, ?irrelevant⟩
  intro w x s h
  rw [exec_xaddr, exec_xaddr, addressBits_eq_extractLsb, addressBits_eq_extractLsb, h]

end Machine

end Sys2Proof
end

section
/-!
PROOFS, spec/40_edge_classifier.md and spec/41_decoder_fsm.md. EDGE as its classified event (C1), the first
sync bit (R90), the six defined transitions, each by the counter (R102 to R115), and the overrun (R152).
-/

namespace Sys2Proof.Machine

/-! ### EDGE and its classified event -/

theorem classify_of_empty_window {low high : Ticks} (hempty : high.toNat ≤ low.toNat + 1) (level : Bool)
    (ticks : Ticks) : classify low high level ticks = if level then .sp else .ss := by
  apply classify_of_short
  rw [isLong_eq_false_iff]
  omega

/-- Settles O29: no count lies inside an empty window, so the classifier's short side applies. -/
theorem emptyWindowIsNeverLong : Obligations.EmptyWindowIsNeverLong :=
  fun _ _ => classify_of_empty_window

@[simp] theorem eventIn_instr (ev : Event) (s : State) : eventIn ev.instr s = some ev := by
  cases ev <;> rfl

theorem exec_instr (ev : Event) (s : State) : exec ev.instr s = onEvent ev s :=
  exec_of_eventIn (eventIn_instr ev s)

theorem exec_edge (level : Bool) (ticks : Ticks) (s : State) :
    exec (.edge level ticks) s = exec (classify s.lowBound s.highBound level ticks).instr s := by
  rw [exec_instr, exec_of_eventIn rfl]

/-- Settles O30: both are `on_event` of the classified event. -/
theorem edgeIsTheClassifiedEvent : Obligations.EdgeIsTheClassifiedEvent := exec_edge

/-! ### The first sync bit -/

/-- In BEGIN every delivered event is the first sync bit (R90). -/
theorem exec_begin {i : Instr} {s : State} (hi : isEventOp i = true) (hen : s.evtEn = true)
    (hst : s.st = .begin_) : exec i s = .next (firstSync s) := by
  obtain ⟨ev, hev⟩ := eventIn_of_isEventOp s hi
  rw [exec_of_eventIn hev, onEvent_begin ev hen hst]

/-- Settles O32: the first sync bit from any counter above 0, and from the armed counter. -/
theorem firstEdgeIsTheLeadingSyncBit : Obligations.FirstEdgeIsTheLeadingSyncBit := by
  refine ⟨fun i s c hi hen hst hcnt => ?any, fun i s hi hen hst hinv => ?armed⟩
  case any =>
    rw [exec_begin hi hen hst, firstSync_of_cnt hcnt]
    rfl
  case armed =>
    obtain ⟨hcnt, hacc, -⟩ := begin_fields hinv hst
    rw [exec_begin hi hen hst, firstSync_of_armed hcnt hacc]
    rfl

/-- Settles O33: the free counter is the model's own decrement at 0. -/
theorem decrementAtZeroIsFree : Obligations.DecrementAtZeroIsFree := by
  intro i s hi hen hst hcnt
  refine ⟨Config.cntBelowZero s.acc, ?_⟩
  rw [exec_begin hi hen hst, firstSync, decrement_zero s.acc (congrArg Fin.val hcnt)]
  rfl

/-! ### The defined transitions, by next state and counter -/

section
variable {i : Instr} {s : State} {t : TableState} {ev : Event} {c : Count}

/-- To MID1: the 1 is emitted at the next lower bit (R95, R99). -/
theorem tableEvent_emit_one (hns : transition t ev = .mid1) (hdef : t ≠ .mid1)
    (hcnt : s.cnt.val = c.val + 1) : tableEvent t ev s = advance .mid1 c (setBit s.acc c) s := by
  have hpos : s.cnt ≠ 0 := fun h => by simp [h] at hcnt
  rw [tableEvent_of_not_completes, hns, emittedCnt_of_emits _ _ rfl, emittedAcc_mid1, decrement_eq _ hcnt]
  · exact hns ▸ hdef.symm
  · exact fun h => hpos h.2
  · simp [hns, completes, accepting]

/-- To MID0 with more than one bit missing: the 0 is emitted (R95, R99). -/
theorem tableEvent_emit_zero (hns : transition t ev = .mid0) (hdef : t ≠ .mid0)
    (hcnt : s.cnt.val = c.val + 1) (hc : c ≠ 0) : tableEvent t ev s = advance .mid0 c s.acc s := by
  have hpos : s.cnt ≠ 0 := fun h => by simp [h] at hcnt
  have hafter : emittedCnt .mid0 s.cnt s.acc = c := (emittedCnt_of_emits _ _ rfl).trans (decrement_eq _ hcnt)
  rw [tableEvent_of_not_completes, hns, hafter, emittedAcc_of_ne (ns := .mid0) _ _ nofun]
  · exact hns ▸ hdef.symm
  · exact fun h => hpos h.2
  · simp [hns, hafter, completes, hc]

/-- To MID0 with one bit missing: the 0 completes the word (R98). -/
theorem tableEvent_last_zero (hns : transition t ev = .mid0) (hdef : t ≠ .mid0) (hcnt : s.cnt = 1) :
    tableEvent t ev s = complete 0 s.acc s := by
  have hafter : emittedCnt .mid0 s.cnt s.acc = 0 :=
    (emittedCnt_of_emits _ _ rfl).trans (decrement_eq _ (by rw [hcnt]; rfl))
  rw [tableEvent_of_completes, hns, hafter, emittedAcc_of_ne (ns := .mid0) _ _ nofun]
  · exact hns ▸ hdef.symm
  · simp [hcnt]
  · rw [hns, completes_iff]
    exact ⟨hafter, .inr rfl⟩

/-- To START1 with bits missing: no bit is emitted (R95, R99). -/
theorem tableEvent_to_start1 (hns : transition t ev = .start1) (hdef : t ≠ .start1) (hcnt : s.cnt ≠ 0) :
    tableEvent t ev s = advance .start1 s.cnt s.acc s := by
  have hafter : emittedCnt .start1 s.cnt s.acc = s.cnt := emittedCnt_of_not_emits _ _ rfl
  rw [tableEvent_of_not_completes, hns, hafter, emittedAcc_of_ne (ns := .start1) _ _ nofun]
  · exact hns ▸ hdef.symm
  · exact fun h => hcnt h.2
  · simp [hns, hafter, completes, hcnt]

/-- To START0: no bit is emitted, and START0 does not accept (R95, R98). -/
theorem tableEvent_to_start0 (hns : transition t ev = .start0) (hdef : t ≠ .start0) :
    tableEvent t ev s = advance .start0 s.cnt s.acc s := by
  rw [tableEvent_of_not_completes, hns, emittedCnt_of_not_emits _ _ rfl,
    emittedAcc_of_ne (ns := .start0) _ _ nofun]
  · exact hns ▸ hdef.symm
  · simp [hns, emits]
  · simp [hns, completes, accepting]

/-! ### The operations that deliver them -/

theorem exec_emit_one (hev : eventIn i s = some ev) (hen : s.evtEn = true) (hst : s.st = .table t)
    (hns : transition t ev = .mid1) (hdef : t ≠ .mid1) (hcnt : s.cnt.val = c.val + 1) :
    exec i s = .next (advance .mid1 c (setBit s.acc c) s) := by
  rw [exec_table hev hen hst, tableEvent_emit_one hns hdef hcnt]

theorem exec_emit_zero (hev : eventIn i s = some ev) (hen : s.evtEn = true) (hst : s.st = .table t)
    (hns : transition t ev = .mid0) (hdef : t ≠ .mid0) (hcnt : s.cnt.val = c.val + 1) (hc : c ≠ 0) :
    exec i s = .next (advance .mid0 c s.acc s) := by
  rw [exec_table hev hen hst, tableEvent_emit_zero hns hdef hcnt hc]

/-- A word that completes with one bit missing has `CNT = 0` after it and keeps its accumulator (R98). -/
theorem exec_last_zero (hev : eventIn i s = some ev) (hen : s.evtEn = true) (hst : s.st = .table t)
    (hns : transition t ev = .mid0) (hdef : t ≠ .mid0) (hcnt : s.cnt = 1) :
    exec i s = .next (complete 0 s.acc s) := by
  rw [exec_table hev hen hst, tableEvent_last_zero hns hdef hcnt]

theorem exec_to_start1 (hev : eventIn i s = some ev) (hen : s.evtEn = true) (hst : s.st = .table t)
    (hns : transition t ev = .start1) (hdef : t ≠ .start1) (hcnt : s.cnt ≠ 0) :
    exec i s = .next (advance .start1 s.cnt s.acc s) := by
  rw [exec_table hev hen hst, tableEvent_to_start1 hns hdef hcnt]

theorem exec_to_start0 (hev : eventIn i s = some ev) (hen : s.evtEn = true) (hst : s.st = .table t)
    (hns : transition t ev = .start0) (hdef : t ≠ .start0) :
    exec i s = .next (advance .start0 s.cnt s.acc s) := by
  rw [exec_table hev hen hst, tableEvent_to_start0 hns hdef]

/-- The short pulse after a fourteenth bit 1 completes the word as it stands (R99). -/
theorem exec_sp_completes (hev : eventIn i s = some .sp) (hen : s.evtEn = true) (hst : s.st = .table .mid1)
    (hcnt : s.cnt = 0) : exec i s = .next (complete 0 s.acc s) := by
  rw [exec_table hev hen hst, tableEvent_mid1_sp_of_cnt_zero hcnt]

theorem exec_overrun (hev : eventIn i s = some ev) (hen : s.evtEn = true) (hst : s.st = .table t)
    (hdef : transition t ev ≠ t) (hemit : emits (transition t ev) = true) (hcnt : s.cnt = 0) :
    exec i s = .next (raiseError .overrun s) := by
  rw [exec_table hev hen hst, tableEvent_of_overrun hdef hemit hcnt]

end

/-- Settles O34: START1 to MID1, by the counter. -/
theorem shortSpaceInStart1EmitsOne : Obligations.ShortSpaceInStart1EmitsOne :=
  fun _ _ hev hen hst =>
    ⟨fun _ => exec_emit_one hev hen hst rfl nofun, exec_overrun hev hen hst nofun rfl⟩

/-- Settles O35: MID1 to START1, which with `CNT = 0` accepts and completes the word as it stands. -/
theorem shortPulseInMid1EndsTheCell : Obligations.ShortPulseInMid1EndsTheCell := by
  intro i s hev hen hst
  refine ⟨exec_to_start1 hev hen hst rfl nofun, fun hcnt => ?complete⟩
  rw [exec_sp_completes hev hen hst hcnt, ← hcnt]
  rfl

/-- Settles O36: MID1 to MID0, by the counter. -/
theorem longPulseInMid1EmitsZero : Obligations.LongPulseInMid1EmitsZero :=
  fun _ _ hev hen hst =>
    ⟨fun _ => exec_emit_zero hev hen hst rfl nofun, exec_last_zero hev hen hst rfl nofun,
      exec_overrun hev hen hst nofun rfl⟩

/-- Settles O37: MID0 to START0, whatever the counter. -/
theorem shortSpaceInMid0EndsTheCell : Obligations.ShortSpaceInMid0EndsTheCell :=
  fun _ _ hev hen hst => exec_to_start0 hev hen hst rfl nofun

/-- Settles O38: MID0 to MID1, by the counter. -/
theorem longSpaceInMid0EmitsOne : Obligations.LongSpaceInMid0EmitsOne :=
  fun _ _ hev hen hst =>
    ⟨fun _ => exec_emit_one hev hen hst rfl nofun, exec_overrun hev hen hst nofun rfl⟩

/-- Settles O39: START0 to MID0, by the counter. -/
theorem shortPulseInStart0EmitsZero : Obligations.ShortPulseInStart0EmitsZero :=
  fun _ _ hev hen hst =>
    ⟨fun _ => exec_emit_zero hev hen hst rfl nofun, exec_last_zero hev hen hst rfl nofun,
      exec_overrun hev hen hst nofun rfl⟩

/-! ### The overrun -/

/-- Of the defined transitions that emit a bit, only the long pulse starts in MID1 (R93). -/
theorem eq_lp_of_emits_mid1 (ev : Event) (hdef : transition .mid1 ev ≠ .mid1)
    (hemit : emits (transition .mid1 ev) = true) : ev = .lp := by
  cases ev with
  | lp => rfl
  | sp => cases hemit
  | ss | ls => exact absurd rfl hdef

/-- With the invariant `CNT = 0` is held in MID1 only, so an overrun is a long pulse there (R152). -/
theorem overrun_of_inv {i : Instr} {s u : State} (hinv : s.Inv) (hexec : exec i s = .next u)
    (herr : u.out.err = some .overrun) :
    s.evtEn = true ∧ s.st = .table .mid1 ∧ s.cnt = 0 ∧ eventIn i s = some .lp := by
  obtain ⟨t, ev, hen, hst, hev, rfl⟩ := exec_err hexec herr
  obtain ⟨-, ⟨hkind, -⟩ | ⟨-, hdef, hemit, hcnt⟩⟩ := tableEvent_err herr
  · cases hkind
  · obtain ⟨-, -, -, -, hzero⟩ := cellInv_of_table hinv hst
    obtain rfl := hzero hcnt
    obtain rfl := eq_lp_of_emits_mid1 ev hdef hemit
    exact ⟨hen, hst, hcnt, hev⟩

/-- Settles O42: the second check of the general case, and the only reachable state that fails it. -/
theorem overrunRearms : Obligations.OverrunRearms :=
  ⟨rfl, fun _ _ _ _ hev hen hst hcnt hdef hemit =>
    exec_overrun hev hen hst hdef ((emits_iff _).2 hemit) hcnt, fun _ _ _ => overrun_of_inv⟩

/-! ### After an error -/

/-- Settles O44: an error leaves the armed state, whose next event is the first sync bit. -/
theorem eventAfterErrorIsTheFirstSyncBit : Obligations.EventAfterErrorIsTheFirstSyncBit := by
  intro i j s t k hexec herr hj
  obtain rfl := exec_err_eq_raiseError hexec herr
  rw [exec_begin hj rfl rfl, firstSync_of_armed rfl rfl]
  rfl

end Sys2Proof.Machine
end

section
/-!
PROOFS, spec/42_command_latch.md and spec/20_memory.md. What an operation can do to the counter, the
accumulator and the latch, the reads of a full latch (R132, R195), the latch after an arming (R134), and
sequences of operations (R49).
-/

namespace Sys2Proof.Machine

/-! ### Sequences of operations -/

@[simp] theorem runOps_nil (s : State) : runOps [] s = .next s := rfl

theorem runOps_cons {i : Instr} {s s' : State} (is : List Instr) (h : exec i s = .next s') :
    runOps (i :: is) s = runOps is s' := by
  rw [runOps, h]

/-- A sequence that answers has a first operation that answers. -/
theorem runOps_cons_next {i : Instr} {is : List Instr} {s u : State} (h : runOps (i :: is) s = .next u) :
    ∃ s', exec i s = .next s' ∧ runOps is s' = .next u := by
  cases hexec : exec i s with
  | next s' => exact ⟨s', rfl, by rwa [runOps_cons is hexec] at h⟩
  | fault r => cases r
  | refused r =>
    rw [runOps, hexec] at h
    cases h

/-! ### The counter and the accumulator -/

/-- R123, R125 between the counter and accumulator before and after an operation: nothing, or one bit
emitted at the next lower position. -/
def BitStep (cnt : Count) (acc : FrameWord) (cnt' : Count) (acc' : FrameWord) : Prop :=
  cnt' = cnt ∧ acc' = acc ∨ cnt'.val + 1 = cnt.val ∧ (acc' = acc ∨ acc' = setBit acc cnt')

theorem bitStep_refl (cnt : Count) (acc : FrameWord) : BitStep cnt acc cnt acc := .inl ⟨rfl, rfl⟩

/-- At most one bit is set, and none is cleared. -/
theorem acc_and_of_bitStep {cnt cnt' : Count} {acc acc' : FrameWord} (h : BitStep cnt acc cnt' acc') :
    acc &&& acc' = acc := by
  obtain ⟨-, rfl⟩ | ⟨-, rfl | rfl⟩ := h
  · exact BitVec.and_self
  · exact BitVec.and_self
  · apply BitVec.eq_of_getLsbD_eq
    intro i _
    rw [BitVec.getLsbD_and, setBit_getLsbD]
    cases acc.getLsbD i <;> rfl

theorem bitStep_emitted {ns : TableState} {cnt : Count} (acc : FrameWord)
    (hroom : ¬(emits ns = true ∧ cnt = 0)) :
    BitStep cnt acc (emittedCnt ns cnt acc) (emittedAcc ns cnt acc) := by
  obtain ⟨-, hcnt, hacc⟩ | ⟨-, hcnt, hacc⟩ | ⟨-, hcnt, hacc⟩ := emitted_cases acc hroom
  · exact .inl ⟨hcnt, hacc⟩
  · exact .inr ⟨hcnt, .inl hacc⟩
  · exact .inr ⟨hcnt, .inr hacc⟩

/-- The general case re-arms, completes or advances by one step of the counter. -/
theorem tableEvent_effect (t : TableState) (ev : Event) (s : State) :
    (∃ k, tableEvent t ev s = raiseError k s) ∨
    (∃ c a, BitStep s.cnt s.acc c a ∧ c = 0 ∧ tableEvent t ev s = complete c a s) ∨
    (∃ ns c a, BitStep s.cnt s.acc c a ∧ tableEvent t ev s = advance ns c a s) := by
  obtain ⟨-, h⟩ | ⟨-, -, -, h⟩ | ⟨-, hroom, hdone, h⟩ | ⟨-, hroom, -, h⟩ := tableEvent_cases t ev s
  · exact .inl ⟨_, h⟩
  · exact .inl ⟨_, h⟩
  · exact .inr (.inl ⟨_, _, bitStep_emitted s.acc hroom, (completes_fields hdone).1, h⟩)
  · exact .inr (.inr ⟨_, _, _, bitStep_emitted s.acc hroom, h⟩)

/-- The first sync bit is one step of the counter too, where the counter is not spent (R90). -/
theorem bitStep_firstSync {s : State} (hcnt : s.cnt.val ≠ 0) :
    BitStep s.cnt s.acc (firstSync s).cnt (firstSync s).acc := by
  refine .inr ⟨?_, .inr rfl⟩
  rw [firstSync_cnt, decrement_val s.acc hcnt]
  omega

/-- An operation that neither arms nor raises an error is one step of the counter. -/
theorem exec_bitStep {i : Instr} {s t : State} (hinv : s.Inv) (h : exec i s = .next t) (hi : i ≠ .arm)
    (herr : t.out.err = none) : BitStep s.cnt s.acc t.cnt t.acc := by
  obtain ⟨ev, -, hon⟩ | ⟨harm, -⟩ | ⟨-, -, rsp, rfl⟩ := exec_next h
  · obtain ⟨-, rfl⟩ | ⟨-, hst, rfl⟩ | ⟨ts, -, -, rfl⟩ := onEvent_next hon
    · exact bitStep_refl _ _
    · obtain ⟨hcnt, -⟩ := begin_fields hinv hst
      exact bitStep_firstSync (by simp [hcnt])
    · obtain ⟨k, hk⟩ | ⟨c, a, hstep, -, hc⟩ | ⟨ns, c, a, hstep, ha⟩ := tableEvent_effect ts ev s
      · simp [hk] at herr
      · rwa [hc]
      · rwa [ha]
  · exact absurd harm hi
  · exact bitStep_refl _ _

/-- Settles O50: one step of the counter, which clears no bit of the accumulator. -/
theorem counterFallsAndBitsStay : Obligations.CounterFallsAndBitsStay := by
  intro i s t hinv h hi herr
  have hstep := exec_bitStep hinv h hi herr
  exact ⟨hstep, acc_and_of_bitStep hstep⟩

/-! ### The latch -/

/-- What an operation other than ARM can do to the latch (R26, R45, R98): leave it, clear it by an error, or
fill it by completion. -/
theorem exec_latch {i : Instr} {s t : State} (h : exec i s = .next t) (hi : i ≠ .arm) :
    (t.avail = s.avail ∧ t.word = s.word) ∨ (t.out.err ≠ none ∧ t.avail = false) ∨
    (isEventOp i = true ∧ s.evtEn = true ∧ t.avail = true ∧ t.st = .end_ ∧ t.cnt = 0 ∧ t.word = t.acc ∧
      t.evtEn = false) := by
  obtain ⟨ev, hev, hon⟩ | ⟨harm, -⟩ | ⟨-, -, rsp, rfl⟩ := exec_next h
  · obtain ⟨-, rfl⟩ | ⟨-, -, rfl⟩ | ⟨ts, hen, -, rfl⟩ := onEvent_next hon
    · exact .inl ⟨rfl, rfl⟩
    · exact .inl ⟨rfl, rfl⟩
    · obtain ⟨k, hk⟩ | ⟨c, a, -, hzero, hc⟩ | ⟨ns, c, a, -, ha⟩ := tableEvent_effect ts ev s
      · exact .inr (.inl (by simp [hk]))
      · rw [hc]
        exact .inr (.inr ⟨isEventOp_of_eventIn hev, hen, rfl, rfl, hzero, rfl, rfl⟩)
      · exact .inl (by simp [ha])
  · exact absurd harm hi
  · exact .inl ⟨rfl, rfl⟩

/-- Settles O51: ARM is named by the statement; every other operation leaves, clears or fills the latch. -/
theorem latchWrittenByCompletionOrArming : Obligations.LatchWrittenByCompletionOrArming := by
  intro i s t h
  by_cases hi : i = .arm
  · subst hi
    obtain rfl := Host.Outcome.next.inj h
    exact ⟨fun _ ht => Bool.noConfusion ht, fun _ _ => .inl rfl, fun _ => .inl rfl⟩
  obtain ⟨havail, hword⟩ | ⟨herr, havail⟩ | ⟨hop, hen, havail, hst, hfields⟩ := exec_latch h hi
  · refine ⟨fun hs ht => ?_, fun hs ht => ?_, fun hw => absurd hword hw⟩ <;> simp [havail, hs] at ht
  · exact ⟨fun _ ht => by simp [havail] at ht, fun _ _ => .inr herr, fun _ => .inr (.inl herr)⟩
  · exact ⟨fun _ _ => ⟨hop, hen, hst, hfields⟩, fun _ ht => by simp [havail] at ht,
      fun _ => .inr (.inr ⟨havail, hst, hen⟩)⟩

/-! ### A full latch -/

/-- Where events are masked, every operation but ARM only responds (R46, R91). -/
theorem exec_of_masked {i : Instr} {s : State} (hmask : s.evtEn = false) (hi : i ≠ .arm) :
    ∃ rsp, exec i s = .next (respond rsp s) := by
  by_cases hop : isEventOp i = true
  · exact ⟨noRsp, exec_masked hop hmask⟩
  · exact readsHaveNoSideEffect i s (by simpa using hop) hi

/-- So a sequence without an ARM changes no register (R195). -/
theorem runOps_of_masked (is : List Instr) : ∀ {s : State}, s.evtEn = false → .arm ∉ is →
    ∃ o : CycleOut, runOps is s = .next { s with out := o } := by
  induction is with
  | nil => exact fun {s} _ _ => ⟨s.out, rfl⟩
  | cons i is ih =>
    intro s hmask hmem
    obtain ⟨hi, his⟩ := not_or.1 (mt List.mem_cons.2 hmem)
    obtain ⟨rsp, hexec⟩ := exec_of_masked hmask (Ne.symm hi)
    rw [runOps_cons is hexec]
    exact ih (s := respond rsp s) hmask his

/-- Settles O21: TAKE reads the latch it leaves; and a word is available in END only, which is masked. -/
theorem takeAnswersAlikeUntilArm : Obligations.TakeAnswersAlikeUntilArm := by
  refine ⟨?twice, ?sequence⟩
  case twice =>
    intro s t u ht hu
    obtain rfl := Host.Outcome.next.inj ht
    exact (Host.Outcome.next.inj hu).symm
  case sequence =>
    intro is s hinv havail hmem
    obtain ⟨o, hrun⟩ := runOps_of_masked is (evtEn_of_end hinv (end_of_avail hinv havail)) hmem
    refine ⟨o, hrun, ?_⟩
    rw [exec_take, takeRsp_of_avail (s := { s with out := o }) havail]
    rfl

/-! ### The latch after an arming -/

/-- Nothing is latched, and it takes more than `n` events to latch a word: the counter is above `n`. -/
def EmptyFor (n : Nat) (s : State) : Prop := s.avail = false ∧ n < s.cnt.val

theorem val_le_succ_of_bitStep {cnt cnt' : Count} {acc acc' : FrameWord} (h : BitStep cnt acc cnt' acc') :
    cnt.val ≤ cnt'.val + 1 := by
  obtain ⟨rfl, -⟩ | ⟨hcnt, -⟩ := h <;> omega

theorem emptyFor_doArm (s : State) {n : Nat} (hn : n < 14) : EmptyFor n (doArm s) := ⟨rfl, hn⟩

theorem emptyFor_tableEvent (t : TableState) (ev : Event) {s : State} {n : Nat} (hn : n < 14)
    (h : EmptyFor (n + 1) s) : EmptyFor n (tableEvent t ev s) := by
  obtain ⟨havail, hcnt⟩ := h
  obtain ⟨k, hk⟩ | ⟨c, a, hstep, rfl, -⟩ | ⟨ns, c, a, hstep, ha⟩ := tableEvent_effect t ev s
  · exact hk ▸ ⟨rfl, hn⟩
  · have hlast : s.cnt.val ≤ 0 + 1 := val_le_succ_of_bitStep hstep
    omega
  · have := val_le_succ_of_bitStep hstep
    exact ha ▸ ⟨havail, by rw [advance_cnt]; omega⟩

/-- An event takes at most one bit (R126). -/
theorem emptyFor_onEvent {ev : Event} {s t : State} {n : Nat} (hn : n < 14) (h : EmptyFor (n + 1) s)
    (hon : onEvent ev s = .next t) : EmptyFor n t := by
  obtain ⟨havail, hcnt⟩ := h
  obtain ⟨-, rfl⟩ | ⟨-, -, rfl⟩ | ⟨ts, -, -, rfl⟩ := onEvent_next hon
  · exact ⟨havail, by rw [respond_cnt]; omega⟩
  · have := val_le_succ_of_bitStep (bitStep_firstSync (s := s) (by omega))
    exact ⟨havail, by omega⟩
  · exact emptyFor_tableEvent ts ev hn ⟨havail, hcnt⟩

theorem emptyFor_exec_of_not_event {i : Instr} {s t : State} {n : Nat} (hn : n < 14) (h : EmptyFor n s)
    (hi : isEventOp i = false) (hexec : exec i s = .next t) : EmptyFor n t := by
  obtain ⟨ev, hev, -⟩ | ⟨-, rfl⟩ | ⟨-, -, rsp, rfl⟩ := exec_next hexec
  · simp [isEventOp_of_eventIn hev] at hi
  · exact emptyFor_doArm s hn
  · exact h

/-- A sequence with at most `n` events leaves such a latch empty. -/
theorem avail_of_runOps (is : List Instr) : ∀ {n : Nat} {s u : State}, n < 14 → EmptyFor n s →
    is.countP isEventOp ≤ n → runOps is s = .next u → u.avail = false := by
  induction is with
  | nil =>
    rintro n s u - ⟨havail, -⟩ - hrun
    cases hrun
    exact havail
  | cons i is ih =>
    intro n s u hn hempty hcount hrun
    obtain ⟨s', hexec, hrest⟩ := runOps_cons_next hrun
    cases hi : isEventOp i with
    | false =>
      rw [List.countP_cons_of_neg (by simp [hi])] at hcount
      exact ih hn (emptyFor_exec_of_not_event hn hempty hi hexec) hcount hrest
    | true =>
      rw [List.countP_cons_of_pos hi] at hcount
      obtain ⟨m, rfl⟩ : ∃ m, n = m + 1 := ⟨n - 1, by omega⟩
      obtain ⟨ev, hev⟩ := eventIn_of_isEventOp s hi
      have hempty' := emptyFor_onEvent (n := m) (by omega) hempty ((exec_of_eventIn hev).symm.trans hexec)
      exact ih (by omega) hempty' (by omega) hrest

/-- Settles O22: an armed counter stands at 14, and thirteen events take at most thirteen of it. -/
theorem noWordBeforeFourteenEvents : Obligations.NoWordBeforeFourteenEvents := by
  intro is s t u harm hcount hrun
  obtain rfl := Host.Outcome.next.inj harm
  have havail := avail_of_runOps is (n := 13) (s := respond noRsp (doArm s)) (by omega)
    (emptyFor_doArm s (by omega)) (by omega) hrun
  exact ⟨havail, exec_take_of_not_avail havail⟩

/-! ### The model's own fields -/

/-- The same registers with another environment and other last outputs. -/
def State.withPort (e : List Cycle) (o : CycleOut) (s : State) : State := { s with env := e, out := o }

/-- The same state with another environment. -/
def State.withEnv (e : List Cycle) (s : State) : State := { s with env := e }

/-- An outcome with its next state changed. -/
def mapNext (f : State → State) : Outcome → Outcome
  | .next s => .next (f s)
  | .fault r => .fault r
  | .refused r => .refused r

theorem tableEvent_withPort (t : TableState) (ev : Event) (e : List Cycle) (o : CycleOut) (s : State) :
    tableEvent t ev (s.withPort e o) = (tableEvent t ev s).withEnv e := by
  simp only [tableEvent, apply_ite (State.withEnv e)]
  rfl

theorem onEvent_withPort (ev : Event) (e : List Cycle) (o : CycleOut) (s : State) :
    onEvent ev (s.withPort e o) = mapNext (State.withEnv e) (onEvent ev s) := by
  by_cases hen : s.evtEn = true
  · cases hst : s.st with
    | begin_ =>
      rw [onEvent_begin ev hen hst, onEvent_begin (s := s.withPort e o) ev hen hst]
      rfl
    | table t =>
      rw [onEvent_table ev hen hst, onEvent_table (s := s.withPort e o) ev hen hst, tableEvent_withPort]
      rfl
    | end_ =>
      rw [onEvent_end ev hen hst, onEvent_end (s := s.withPort e o) ev hen hst]
      rfl
  · have hmask : s.evtEn = false := by simpa using hen
    rw [onEvent_masked ev hmask, onEvent_masked (s := s.withPort e o) ev hmask]
    rfl

/-- Every outcome commutes with a change of the model's own fields, a stop included. -/
theorem exec_withPort (i : Instr) (e : List Cycle) (o : CycleOut) (s : State) :
    exec i (s.withPort e o) = mapNext (State.withEnv e) (exec i s) := by
  cases i with
  | edge level ticks =>
    rw [exec_of_eventIn (s := s.withPort e o) rfl, exec_of_eventIn (s := s) rfl]
    exact onEvent_withPort _ e o s
  | evSS | evSP | evLS | evLP => exact onEvent_withPort _ e o s
  | nop | arm | take | xcmd _ | xtog _ | xaddr _ => rfl

/-- With the fields it already has, a state is unchanged, so `env` is written by nothing. -/
theorem exec_keeps_env {i : Instr} {s t : State} (h : exec i s = .next t) : t.env = s.env := by
  have hsame : Host.Outcome.next t = .next (t.withEnv s.env) :=
    calc Host.Outcome.next t
        = exec i s := h.symm
      _ = mapNext (State.withEnv s.env) (exec i s) := exec_withPort i s.env s.out s
      _ = .next (t.withEnv s.env) := congrArg _ h
  have hfix := Host.Outcome.next.inj hsame
  exact (congrArg State.env hfix).trans rfl

/-- Settles O52: the change of the fields is carried to the next state, where an operation writes `out`. -/
theorem operationsIgnoreTheModelsFields : Obligations.OperationsIgnoreTheModelsFields := by
  intro i s t h
  refine ⟨exec_keeps_env h, fun e o => ?_⟩
  exact (exec_withPort i e o s).trans (congrArg (mapNext (State.withEnv e)) h)

/-! ### The presented sequence -/

/-- The step that runs a presented operation leaves the cycles after it to the steps after it. -/
theorem step_of_request_withEnv (i : Instr) (s : State) (cs rest : List Cycle) :
    step (s.withEnv (Cycle.request (encode i) :: cs)) =
      mapNext (State.withEnv cs) (exec i (s.withEnv rest)) :=
  (step_of_request i rfl).trans (exec_withPort i cs s.out (s.withEnv rest))

theorem run_succ_of_refused {s : State} {r : Refusal} (n : Nat) (h : step s = .refused r) :
    Host.Core.run Sys2Proof.core (n + 1) s = .refused r := by
  simp only [Host.Core.run]
  rw [show Sys2Proof.core.step s = .refused r from h]

/-- As many steps as a sequence is long run it, by induction on the sequence. -/
theorem run_presented (is : List Instr) (rest : List Cycle) : ∀ s : State,
    Host.Core.run Sys2Proof.core is.length
        (s.withEnv (is.map (fun i => Cycle.request (encode i)) ++ rest)) =
      runOps is (s.withEnv rest) := by
  induction is with
  | nil => exact fun _ => rfl
  | cons i is ih =>
    intro s
    have hstep := step_of_request_withEnv i s (is.map (fun i => Cycle.request (encode i)) ++ rest) rest
    cases hexec : exec i (s.withEnv rest) with
    | next t =>
      have hrest : t.withEnv rest = t := by
        rw [State.withEnv, ← show t.env = rest from exec_keeps_env hexec]
      rw [hexec] at hstep
      rw [runOps_cons is hexec, ← hrest]
      exact (run_succ_of_step _ hstep).trans (ih t)
    | fault r => cases r
    | refused r =>
      rw [hexec] at hstep
      rw [runOps, hexec]
      exact run_succ_of_refused _ hstep

/-- Settles O53: the run of the presented sequence. -/
theorem sequenceIsFoldOfOperations : Obligations.SequenceIsFoldOfOperations := run_presented

end Sys2Proof.Machine
end

section
/-!
PROOFS, spec/30_encoding.md R77, spec/41_decoder_fsm.md R126 and spec/70_reset_and_hazards.md R192. The events
of a transmission, cell by cell: that they latch its word, and that they are the classified edges of FRAME;
then the number of a frame's edges, and the lock-out.
-/

namespace Sys2Proof.Machine

/-! ### The events of a transmission -/

/-- The events of a cell that carries `x` after a cell that carried `b`: two short intervals where the bit is
the same, one long interval where it is not (R77). -/
def cellEvents : (b x : Bool) → List Event
  | true, true => [.sp, .ss]
  | true, false => [.lp]
  | false, true => [.ls]
  | false, false => [.ss, .sp]

/-- The events of the last `n` cells of `w` and of the idle line, after a cell that carried `b`. -/
def eventsBelow (w : FrameWord) : Nat → Bool → List Event
  | 0, b => if b then [.sp] else []
  | n + 1, b => cellEvents b (w.getLsbD n) ++ eventsBelow w n (w.getLsbD n)

/-- The state in the middle of a cell that carries `b` (10_state.md R21). -/
def midOf (b : Bool) : TableState := if b then .mid1 else .mid0

/-- The bits of `w` from bit `n` on: what the accumulator holds with `n` bits missing. -/
def keepFrom (w : FrameWord) (n : Nat) : FrameWord := (w >>> n) <<< n

@[simp] theorem getLsbD_keepFrom (w : FrameWord) (n k : Nat) :
    (keepFrom w n).getLsbD k = (decide (n ≤ k) && w.getLsbD k) := by
  rw [keepFrom, BitVec.getLsbD_shiftLeft, BitVec.getLsbD_ushiftRight]
  by_cases hn : n ≤ k
  · rw [Nat.add_sub_cancel' hn]
    by_cases hk : k < 14
    · simp [hk, hn]
    · simp [BitVec.getLsbD_of_ge w k (by omega)]
  · simp [hn, Nat.lt_of_not_le hn]

@[simp] theorem keepFrom_zero (w : FrameWord) : keepFrom w 0 = w := by
  apply BitVec.eq_of_getLsbD_eq
  simp

theorem setBit_keepFrom {w : FrameWord} {c : Count} (hbit : w.getLsbD c.val = true) :
    setBit (keepFrom w (c.val + 1)) c = keepFrom w c.val := by
  apply BitVec.eq_of_getLsbD_eq
  intro k hk
  rw [setBit_getLsbD, getLsbD_keepFrom, getLsbD_keepFrom]
  obtain hlt | rfl | hgt := Nat.lt_trichotomy k c.val
  · simp [Nat.not_le_of_lt hlt, Nat.ne_of_lt hlt, Nat.not_le_of_lt (Nat.lt_succ_of_lt hlt)]
  · simp [hbit, hk]
  · simp [Nat.ne_of_gt hgt, Nat.le_of_lt hgt, Nat.succ_le_of_lt hgt]

theorem keepFrom_succ_of_false {w : FrameWord} {n : Nat} (hbit : w.getLsbD n = false) :
    keepFrom w (n + 1) = keepFrom w n := by
  apply BitVec.eq_of_getLsbD_eq
  intro k _
  rw [getLsbD_keepFrom, getLsbD_keepFrom]
  obtain hlt | rfl | hgt := Nat.lt_trichotomy k n
  · simp [Nat.not_le_of_lt hlt, Nat.not_le_of_lt (Nat.lt_succ_of_lt hlt)]
  · simp [hbit]
  · simp [Nat.le_of_lt hgt, Nat.succ_le_of_lt hgt]

/-- After the leading sync bit the accumulator holds the word's first bit. -/
theorem keepFrom_lead {w : FrameWord} (hlead : w.getLsbD 13 = true) : keepFrom w 13 = 0x2000#14 :=
  calc keepFrom w 13
      = setBit (keepFrom w 14) 13 := (setBit_keepFrom (c := 13) hlead).symm
    _ = setBit 0#14 13 := by rw [keepFrom, BitVec.ushiftRight_eq_zero (Nat.le_refl 14), BitVec.zero_shiftLeft]
    _ = 0x2000#14 := rfl

/-! ### The decoder on the events of a transmission -/

section
variable {s : State} {b : Bool}

/-- The events of a cell lead, past the cell's boundary where that has an edge, to the event that emits the
cell's bit (R107, R110). -/
theorem runOps_cellEvents (hst : s.st = .table (midOf b)) (hen : s.evtEn = true) (hcnt : s.cnt ≠ 0)
    (x : Bool) (evs : List Event) : ∃ t ev o, transition t ev = midOf x ∧ t ≠ midOf x ∧
      runOps ((cellEvents b x ++ evs).map Event.instr) s =
        runOps ((ev :: evs).map Event.instr) { s with st := .table t, out := o } := by
  have hstay : { s with st := .table (midOf b), out := s.out } = s := by rw [← hst]
  cases b <;> cases x
  case true.true =>
    refine ⟨.start1, .ss, ⟨noRsp, true, none⟩, rfl, nofun, ?_⟩
    exact runOps_cons _ (exec_to_start1 (t := .mid1) (ev := .sp) rfl hen hst rfl nofun hcnt)
  case false.false =>
    refine ⟨.start0, .sp, ⟨noRsp, true, none⟩, rfl, nofun, ?_⟩
    exact runOps_cons _ (exec_to_start0 (t := .mid0) (ev := .ss) rfl hen hst rfl nofun)
  case true.false => exact ⟨.mid1, .lp, s.out, rfl, nofun, congrArg _ hstay.symm⟩
  case false.true => exact ⟨.mid0, .ls, s.out, rfl, nofun, congrArg _ hstay.symm⟩

/-- With `n` bits of `w` missing, the events of its last `n` cells complete `w`, by induction on `n`. -/
theorem runOps_eventsBelow (w : FrameWord) (n : Nat) : ∀ {b : Bool} {s : State},
    s.st = .table (midOf b) → s.evtEn = true → s.cnt.val = n → s.acc = keepFrom w n → (n = 0 → b = true) →
    runOps ((eventsBelow w n b).map Event.instr) s = .next (complete 0 w s) := by
  induction n with
  | zero =>
    intro b s hst hen hcnt hacc hone
    obtain rfl := hone rfl
    rw [keepFrom_zero] at hacc
    rw [← hacc]
    exact runOps_cons _ (exec_sp_completes (i := .evSP) rfl hen hst (Fin.ext hcnt))
  | succ n ih =>
    intro b s hst hen hcnt hacc _
    obtain ⟨c, rfl⟩ : ∃ c : Count, n = c.val := ⟨⟨n, by omega⟩, rfl⟩
    have hpos : s.cnt ≠ 0 := fun h => by simp [h] at hcnt
    obtain ⟨t, ev, o, hns, hdef, hrun⟩ :=
      runOps_cellEvents hst hen hpos (w.getLsbD c.val) (eventsBelow w c.val (w.getLsbD c.val))
    rw [eventsBelow, hrun, List.map_cons]
    have hev := eventIn_instr ev { s with st := .table t, out := o }
    cases hbit : w.getLsbD c.val with
    | true =>
      rw [hbit] at hns hdef
      rw [runOps_cons _ (exec_emit_one hev hen rfl hns hdef hcnt)]
      exact ih rfl hen rfl (hacc ▸ setBit_keepFrom hbit) fun _ => rfl
    | false =>
      rw [hbit] at hns hdef
      rw [keepFrom_succ_of_false hbit] at hacc
      by_cases hlast : c = 0
      · subst hlast
        have hword : s.acc = w := hacc.trans (keepFrom_zero w)
        rw [runOps_cons _ (exec_last_zero hev hen rfl hns hdef (Fin.ext hcnt)), ← hword]
        rfl
      · rw [runOps_cons _ (exec_emit_zero hev hen rfl hns hdef hcnt hlast)]
        exact ih rfl hen rfl hacc fun h => absurd (Fin.ext h) hlast

/-- From the armed state, after any first edge, the events of `w` complete `w` (R126). -/
theorem runOps_eventsBelow_firstSync {w : FrameWord} (hlead : w.getLsbD 13 = true) (hcnt : s.cnt = 14)
    (hacc : s.acc = 0#14) (hen : s.evtEn = true) :
    runOps ((eventsBelow w 13 true).map Event.instr) (firstSync s) = .next (complete 0 w s) := by
  rw [firstSync_of_armed hcnt hacc]
  exact runOps_eventsBelow w 13 rfl hen rfl (keepFrom_lead hlead).symm nofun

end

/-- Settles O56: the events of the word's own transmission. -/
theorem everyWordCanBeLatched : Obligations.EveryWordCanBeLatched := by
  intro w hlead
  refine ⟨.ss :: eventsBelow w 13 true, fun s => ?_⟩
  have hfirst : exec Event.ss.instr (respond noRsp (doArm s)) = _ := exec_begin rfl rfl rfl
  rw [runOps_cons _ (exec_arm s), List.map_cons, runOps_cons _ hfirst,
    runOps_eventsBelow_firstSync hlead rfl rfl rfl]
  exact ⟨_, rfl, rfl, rfl⟩

/-! ### The edges of FRAME -/

/-- The edge that classifies as an event, in a transmission of half cell `h` (R77). -/
def eventEdge (h : Nat) : Event → Instr
  | .ss => .edge false (BitVec.ofNat 32 h)
  | .sp => .edge true (BitVec.ofNat 32 h)
  | .ls => .edge false (BitVec.ofNat 32 (2 * h))
  | .lp => .edge true (BitVec.ofNat 32 (2 * h))

/-- What the line carries at the end of a cell that carries `b` (R77). -/
def endHalf (b : Bool) : Half := if b then .pulse else .space

/-- The last `n` bits of `w`, in the order of their transmission. -/
def bitsBelow (w : FrameWord) : Nat → List Bool
  | 0 => []
  | n + 1 => w.getLsbD n :: bitsBelow w n

theorem frameBitList_eq (w : FrameWord) : frameBitList w = bitsBelow w 14 := rfl

/-- The edges of a cell, the last edge having been in the middle of the cell before it. -/
theorem edgesOf_bitHalves (first : Ticks) (h i : Nat) (b x : Bool) (hs : List Half) :
    edgesOf first h (bitHalves x ++ hs) (i + 1) (endHalf b) (some i) =
      (cellEvents b x).map (eventEdge h) ++ edgesOf first h hs (i + 3) (endHalf x) (some (i + 2)) := by
  have hone (j : Nat) : edgeTicks first h (j + 1) (some j) = BitVec.ofNat 32 h := by
    rw [edgeTicks, Nat.add_sub_cancel_left, Nat.one_mul]
  have htwo : edgeTicks first h (i + 2) (some i) = BitVec.ofNat 32 (2 * h) := by
    rw [edgeTicks, Nat.add_sub_cancel_left]
  cases b <;> cases x <;> simp [bitHalves, endHalf, cellEvents, eventEdge, edgesOf, hone, htwo]

/-- The edges of the last `n` cells and of the idle line, by induction on `n`. -/
theorem edgesOf_bitsBelow (first : Ticks) (h : Nat) (w : FrameWord) (n : Nat) : ∀ (i : Nat) (b : Bool),
    edgesOf first h ((bitsBelow w n).flatMap bitHalves ++ [.space]) (i + 1) (endHalf b) (some i) =
      (eventsBelow w n b).map (eventEdge h) := by
  induction n with
  | zero =>
    intro i b
    cases b <;> simp [bitsBelow, eventsBelow, endHalf, eventEdge, edgesOf, edgeTicks]
  | succ n ih =>
    intro i b
    rw [bitsBelow, List.flatMap_cons, List.append_assoc, edgesOf_bitHalves, ih, eventsBelow, List.map_append]

/-- A frame is its first falling edge and the edges of the events after it. -/
theorem frameOps_eq {w : FrameWord} (hlead : w.getLsbD 13 = true) (first : Ticks) (h : Nat) :
    frameOps w first h = .edge false first :: (eventsBelow w 13 true).map (eventEdge h) := by
  rw [frameOps, frameHalves, frameBitList_eq, bitsBelow, hlead, ← edgesOf_bitsBelow first h w 13 1 true]
  rfl

/-! ### The classified edges -/

/-- The bounds tell half cells of `h` ticks from full cells: the premise of E2 (95_test_vectors.md). -/
def HalfCell (h : Nat) (s : State) : Prop :=
  h ≤ s.lowBound.toNat ∧ s.lowBound.toNat < 2 * h ∧ 2 * h < s.highBound.toNat

theorem eventIn_eventEdge {h : Nat} {s : State} (hcell : HalfCell h s) (ev : Event) :
    eventIn (eventEdge h ev) s = some ev := by
  obtain ⟨hle, hlow, hhigh⟩ := hcell
  have hbound := s.highBound.isLt
  have hshort : isLong s.lowBound s.highBound (BitVec.ofNat 32 h) = false := by
    rw [isLong_eq_false_iff, BitVec.toNat_ofNat, Nat.mod_eq_of_lt (by omega)]
    omega
  have hlong : isLong s.lowBound s.highBound (BitVec.ofNat 32 (2 * h)) = true := by
    rw [isLong_iff, BitVec.toNat_ofNat, Nat.mod_eq_of_lt (by omega)]
    exact ⟨hlow, hhigh⟩
  cases ev with
  | ss => exact congrArg some (classify_of_short false hshort)
  | sp => exact congrArg some (classify_of_short true hshort)
  | ls => exact congrArg some (classify_of_long false hlong)
  | lp => exact congrArg some (classify_of_long true hlong)

/-- A sequence of such edges does what its sequence of events does: no operation moves the bounds (R28). -/
theorem runOps_eventEdges {h : Nat} (evs : List Event) : ∀ {s : State}, HalfCell h s →
    runOps (evs.map (eventEdge h)) s = runOps (evs.map Event.instr) s := by
  induction evs with
  | nil => exact fun _ => rfl
  | cons ev evs ih =>
    intro s hcell
    have hsame : exec (eventEdge h ev) s = exec ev.instr s := by
      rw [exec_of_eventIn (eventIn_eventEdge hcell ev), exec_instr]
    rw [List.map_cons, List.map_cons, runOps, runOps, hsame]
    cases hexec : exec ev.instr s with
    | next t =>
      obtain ⟨hlow, hhigh⟩ := exec_keeps_bounds hexec
      exact ih (by rwa [HalfCell, hlow, hhigh])
    | fault r => rfl
    | refused r => rfl

/-- Settles O54: the first edge is the sync bit whatever its count; the other edges are the events of `w`. -/
theorem frameDecodesToItsWord : Obligations.FrameDecodesToItsWord := by
  intro w first h s hlead hst hcnt hacc hen hle hlow hhigh
  have hcell : HalfCell h (firstSync s) := ⟨hle, hlow, hhigh⟩
  rw [frameOps_eq hlead, runOps_cons _ (exec_begin rfl hen hst), runOps_eventEdges _ hcell,
    runOps_eventsBelow_firstSync hlead hcnt hacc hen]
  rfl

/-! ### The number of edges -/

/-- Refutes O55: the alternating word 0x2AAA has one edge in the middle of each of its fourteen cells, none at
a boundary, and a last cell that ends in space, so its frame has fourteen edges. -/
theorem not_frameEdgesAreEven : ¬ Obligations.FrameEdgesAreEven := by
  intro h
  obtain ⟨hleast, -⟩ := h 0x2AAA#14 0#32 889 rfl
  have hlength : (frameOps 0x2AAA#14 0#32 889).length = 14 := by decide
  omega

/-! ### Lock-out -/

/-- A falling edge delivers a space, which MID1 has no transition for (R106, R108). -/
theorem transition_mid1_of_falling (low high ticks : Ticks) :
    transition .mid1 (classify low high false ticks) = .mid1 := by
  cases hlong : isLong low high ticks with
  | false => rw [classify_of_short false hlong]; rfl
  | true => rw [classify_of_long false hlong]; rfl

/-- A rising and a falling edge bring the armed decoder back to where it was. -/
theorem runOps_rising_falling (d : Ticks × Ticks) (is : List Instr) {s : State} (hinv : s.Inv)
    (hst : s.st = .begin_) (hen : s.evtEn = true) :
    runOps (.edge true d.1 :: .edge false d.2 :: is) s =
      runOps is { s with out := ⟨noRsp, true, some .self⟩ } := by
  obtain ⟨hcnt, hacc, havail, hword⟩ := begin_fields hinv hst
  have hrearm : raiseError .self (firstSync s) = { s with out := ⟨noRsp, true, some .self⟩ } := by
    rw [hst, hcnt, hacc, havail, hword, hen]
    rfl
  have hfall : exec (.edge false d.2) (firstSync s) = .next (raiseError .self (firstSync s)) := by
    rw [exec_table (s := firstSync s) rfl hen (firstSync_st s), tableEvent_of_self (transition_mid1_of_falling _ _ _)]
  rw [runOps_cons _ (exec_begin rfl hen hst), runOps_cons _ hfall, hrearm]

/-- Settles O57, by induction on the number of pairs. -/
theorem alternatingEdgesLockOut : Obligations.AlternatingEdgesLockOut := by
  intro durations
  induction durations with
  | nil => exact fun s _ _ _ => ⟨s.out, rfl⟩
  | cons d durations ih =>
    intro s hinv hst hen
    obtain ⟨o, hrun⟩ := ih { s with out := ⟨noRsp, true, some .self⟩ } hinv hst hen
    exact ⟨o, (runOps_rising_falling d _ hinv hst hen).trans hrun⟩

end Sys2Proof.Machine
end
